-- ==== Sys2Proof/Word.lean ====
section
/-! DEFINITION. The word types of the CJ840: bytes, 32-bit bus words, 64-bit route words (11 R181). -/

namespace Sys2Proof

/-- One byte of shared memory or of a link frame. -/
abbrev Byte := BitVec 8

/-- One 32-bit word: a bus access, a register, an address, a NET_TIME value. -/
abbrev Word := BitVec 32

/-- One route word: the high word above the low word (01 R5, 11 R181). -/
abbrev RouteWord := BitVec 64

end Sys2Proof
end

