-- ==== Sys2Proof/Syntax.lean ====
section
/-! DEFINITION. The commands: one constructor per row of spec/opcode_table.json. A command is one event; its operands are
what the event brings into the part from outside (a value written, the word of a bus response, a link, an entry, a window, a
frame). -/

namespace Sys2Proof

inductive Instr where
  /-- POWER_ON (R180). -/
  | powerOn
  /-- RESET_ASSERT (R180). -/
  | resetAssert
  /-- RESET_RELEASE (R180). -/
  | resetRelease
  /-- SELECT_WRITE (R168): the value written to the SELECT port. -/
  | selectWrite (value : Word)
  /-- HALT (R173): the value of a CONTROL write with the HALT bit set. -/
  | halt (value : Word)
  /-- POLL_NOW (R159): the value of a CONTROL write with the POLL_NOW bit set. -/
  | pollNow (value : Word)
  /-- IRQ_EN_WRITE (R169): the value of a CONTROL write. -/
  | irqEnWrite (value : Word)
  /-- EVENTS_WRITE (R172). -/
  | eventsWrite (value : Word)
  /-- EVENT_MASK_WRITE (R172). -/
  | eventMaskWrite (value : Word)
  /-- BLOCK_BASE_WRITE (R170). -/
  | blockBaseWrite (value : Word)
  /-- JOURNAL_MARK_WRITE (R152). -/
  | journalMarkWrite (value : Word)
  /-- NET_TIME_WRITE (R25). -/
  | netTimeWrite (value : Word)
  /-- REGISTER_WRITE_IGNORED (R168). -/
  | registerWriteIgnored (value : Word)
  /-- CONTROL_BLOCK_READ_DONE (R174): the last Control Block word of a load. -/
  | controlBlockReadDone (data : Word)
  /-- LOAD_WINDOW_READ_DONE (R45): the last word of one window entry. -/
  | loadWindowReadDone (data : Word)
  /-- LOAD_CUSTODY_READ_DONE (R22): the last word of one circuit record. -/
  | loadCustodyReadDone (data : Word)
  /-- STOPPING_END (R177): the response of the HALTED run-state write. -/
  | stoppingEnd (data : Word)
  /-- BUS_ERROR_RESPONSE (R178). -/
  | busErrorResponse
  /-- BUS_TIMEOUT (R178). -/
  | busTimeout
  /-- MEMORY_ACCESS_DONE (R178): the response of the access on the bus, with the word a read returns. -/
  | memoryAccessDone (data : Word)
  /-- SECOND_EVENT (R24). -/
  | secondEvent
  /-- SETTLE_EXPIRY (R28). -/
  | settleExpiry (window : Fin 64)
  /-- WINDOW_REFRESH_DONE (R32): the last word of one window's refresh. -/
  | windowRefreshDone (data : Word)
  /-- PHASE_WORD_WRITTEN (R37). -/
  | phaseWordWritten (data : Word)
  /-- SIGNAL_LOST (R94). -/
  | signalLost (link : Fin 4)
  /-- SIGNAL_PRESENT (R95). -/
  | signalPresent (link : Fin 4)
  /-- HOLD_OFF_EXPIRY (R94). -/
  | holdOffExpiry (link : Fin 4)
  /-- TRANSMIT_FRAME_DONE (R99). -/
  | transmitFrameDone (link : Fin 4)
  /-- FRAME_RECEIVED (R101): the bytes of a complete frame. -/
  | frameReceived (link : Fin 4) (frame : List Byte)
  /-- LAUNCH_GAP_EXPIRY (R76). -/
  | launchGapExpiry (link : Fin 4)
  /-- PROBE_TIMEOUT (R79). -/
  | probeTimeout (slot : Fin 64)
  /-- BACKOFF_EXPIRY (R80). -/
  | backoffExpiry (slot : Fin 64)
  /-- HOST_WORD_READ_DONE (R12): the last word of a custody action's record reads. -/
  | hostWordReadDone (data : Word)
  /-- ROUTE_READ_DONE (R9): the last word of a route read. -/
  | routeReadDone (data : Word)
  /-- REACH_MAP_READ_DONE (R72). -/
  | reachMapReadDone (data : Word)
  /-- ALIGNMENT_DONE (R143). -/
  | alignmentDone
  /-- ENGINE_WORD_WRITTEN (R120). -/
  | engineWordWritten (data : Word)
  /-- JOURNAL_ENTRY_WRITTEN (R149). -/
  | journalEntryWritten (data : Word)
  /-- POLL_TIMER_EXPIRY (R158). -/
  | pollTimerExpiry
  /-- EPOCH_READ_DONE (R158). -/
  | epochReadDone (data : Word)
  /-- REQUEST_CONTROL_READ_DONE (R163). -/
  | requestControlReadDone (data : Word)
  /-- VERIFY_CIRCUIT (R52): the argument word of a VERIFY_CIRCUIT request. -/
  | verifyCircuit (data : Word)
  /-- VERIFY_SPANS (R165): the last span-id word of a VERIFY_SPANS request. -/
  | verifySpans (data : Word)
  /-- ABORT (R62): the argument word of an ABORT request. -/
  | abort (data : Word)
  /-- REQUEST_HANDBACK_DONE (R164). -/
  | requestHandbackDone (data : Word)
deriving DecidableEq, Repr

end Sys2Proof
end

