-- ==== Sys2Proof/Config.lean ====
section
/-! DEFINITION. The free values: constants with no body, so that no proof can see what they are. -/

namespace Sys2Proof

/-- FREE VALUE (assumption 5): which of the custody requests that arrived together is served first (01 R11: "Requests that
arrive together may be served in either order"). Applied to the free counter; taken modulo the number of candidates. -/
opaque Config.custodyTie : Nat → Nat

/-- FREE VALUE (assumption 5): whether the word a write was carrying when its access was cut off holds its new value
(10 R180: "A word it was writing may hold its old value or its new one"). Applied to the free counter. -/
opaque Config.cutOffWriteLands : Nat → Bool

end Sys2Proof
end

