-- ==== Sys2Proof/Machine/State.lean ====
section
/-! DEFINITION. The state of the CJ840 as plain data, block by block, with the value every field has right after the reset
pin is released as its default. Widths, rules and reset values are listed in INVENTORY.md under "State". -/

namespace Sys2Proof.Machine

/-! ### Registers, clock and parameters (chapters 2, 5, 7, 10) -/

/-- Run states, 10 R168 R173. -/
inductive RunState where
  | halted | loading | running | stopping | faulted
deriving DecidableEq, Repr

/-- Fault codes, 10 R174. -/
inductive FaultCode where
  | none | baseAlign | circuitCount | poolSize | slotCount | journalSize | tableAlign | bus
deriving DecidableEq, Repr

/-- The register window's own bits, 10 R168 to R172. -/
structure Regs where
  /-- SELECT index, 10 R168. -/
  select : BitVec 4 := 0
  /-- EVENTS, bit 0 LOAD_DONE to bit 9 REG_REFUSED, 10 R168 R171. -/
  events : BitVec 10 := 0
  /-- EVENT_MASK, 10 R168. -/
  mask : BitVec 10 := 0
  /-- CONTROL.IRQ_EN, 10 R169. -/
  irqEn : Bool := false
  /-- CONTROL.POLL_NOW as held, 09 R159, 10 R169. -/
  pollNow : Bool := false
  /-- CONTROL.run state, 10 R173. -/
  runState : RunState := .halted
  /-- CONTROL.fault code, 10 R174. -/
  faultCode : FaultCode := .none
  /-- BLOCK_BASE, 10 R170. -/
  blockBase : Word := 0
  /-- FAULT_ADDR, 10 R174 R178. -/
  faultAddr : Word := 0
deriving DecidableEq, Repr

/-- The Network Clock, 02 R24. -/
structure Clock where
  netTime : Word := 0
  /-- Milliseconds within the second, 0..999. -/
  subCount : Nat := 0
deriving DecidableEq, Repr

/-- Per-link linkage, 05 R92. -/
inductive Linkage where
  | reroute | bind
deriving DecidableEq, Repr

/-- The five per-link parameters, 05 R92. -/
structure LinkParams where
  enabled : Bool := false
  linkage : Linkage := .reroute
  /-- 10 ms units. -/
  holdOff : Nat := 1
  limit : Nat := 1
  /-- ms. -/
  gap : Nat := 0
deriving DecidableEq, Repr

/-- One tolerance class, 07 R129. -/
structure Tolerance where
  upper : Nat := 0
  lower : Nat := 0
deriving DecidableEq, Repr

/-- What the last load's clamping step holds, 10 R175 (addresses and counts: assumption 4 for their reset values). `controlBlock` is the
address of the Control Block it was read from, whose Status Area the session writes, 11 R182 (assumption 23). -/
structure Params where
  controlBlock : Word := 0
  circuitTable : Word := 0
  circuitCount : Nat := 0
  routePool : Word := 0
  poolSize : Nat := 0
  windowList : Word := 0
  windowCount : Nat := 0
  requestList : Word := 0
  slotCount : Nat := 1
  reachMap : Word := 0
  journalBase : Word := 0
  journalSize : Nat := 0
  ownNode : Nat := 0
  tolerance : Vector Tolerance 8 := Vector.replicate 8 {}
  driftLimit : Nat := 0
  probeTimeout : Nat := 1
  backoffBase : Nat := 1
  retries : Nat := 0
  depth : Nat := 1
  urgentWeight : Nat := 1
  routineWeight : Nat := 1
  weighted : Bool := false
  pollPeriod : Nat := 1
  defaultSettle : Nat := 1
  links : Vector LinkParams 4 := Vector.replicate 4 {}
deriving DecidableEq, Repr

/-! ### Circuits, routes and custody (chapter 1) -/

/-- Engine states, 01 1.3, coded as in 11 R183. -/
inductive EngineState where
  | ignored | watched | claimed | rejected | released
deriving DecidableEq, Repr

/-- The host word's request, 01 R2. -/
inductive HostRequest where
  | vacant | active | recall
deriving DecidableEq, Repr

/-- Pending releases, 01 R10. -/
inductive Release where
  | none | toReleased | toIgnored
deriving DecidableEq, Repr

/-- Verdicts, coded as in 11 R183. -/
inductive Verdict where
  | none | continuous | degraded | misrouted | broken | incomplete | noEcho | notTested | edited | routeInvalid
deriving DecidableEq, Repr

/-- One Circuit State Map entry, 01 R10, at its power-on value, 01 R21. The last verdict is held as its 4-bit code, which a load takes
from the engine word as the word shows it, a code that names no verdict among them (01 R22, assumption 12). -/
structure MapEntry where
  engine : EngineState := .ignored
  release : Release := .none
  lastVerdict : Nat := 0
  lastCampaign : Nat := 0
deriving DecidableEq, Repr

/-- The four attributes that govern a HOP, 01 R7. -/
structure Attr where
  tolClass : Nat
  stamping : Bool
  lossCheck : Bool
  channel : Nat
deriving DecidableEq, Repr

/-- One HOP with the attributes in force at it, 01 R6 R7. -/
structure Hop where
  node : Nat
  ingress : Nat
  egress : Nat
  span : Nat
  spanLoss : Nat
  hopLoss : Nat
  attr : Attr
deriving DecidableEq, Repr

/-- A valid route: its HOPs in order, 01 R7. The expected sequence, the span list and the segment contents are read off it. -/
structure Route where
  hops : List Hop
deriving DecidableEq, Repr

/-- The six words a custody action's record reads return: the host word and the five part-written words, 01 R11, 11 R183. -/
structure RecordWords where
  host : Word := 0
  engine : Word := 0
  captured : Word := 0
  baseline : Word := 0
  loss : Word := 0
  time : Word := 0
deriving DecidableEq, Repr

/-- A route read in flight, 01 R9: words 0x04 and 0x08 of the record, the low word of the route word being read, and the
route words read so far. -/
structure RouteRead where
  recWords : List Word := []
  low : Option Word := none
  words : List RouteWord := []
deriving DecidableEq, Repr

/-- What a selection takes from its custody action for a claim, 01 R16, 03 R57. -/
structure Selected where
  circuit : Nat
  trail : Nat
  head : Nat
  spans : List Nat
  revision : Nat
deriving DecidableEq, Repr

/-- The outcome of a selection's custody action, 01 R16. -/
inductive SelectOutcome where
  | notWatched | rejected | unusable
  | watched (sel : Selected)
  | claimed (sel : Selected)
deriving DecidableEq, Repr

/-- Who asks for a custody action, 01 R11; the load's custody step works through the same actions, 01 R22. A selection whose
campaign has been aborted is no longer live: its outcome is not acted on, 03 R62. -/
inductive CustodyReq where
  | sweep (circuit : Nat)
  | load (circuit : Nat)
  | select (slot : Fin 8) (campaign : Nat) (circuit : Nat) (live : Bool)
  | compare (entry : Fin 64) (circuit : Nat)
deriving DecidableEq, Repr

/-- What follows when a custody action's writes have reached memory: the action ends, or its VERDICT entry (01 R14 R15) is
handed over. -/
inductive AfterWrites where
  | finish (outcome : SelectOutcome)
  | journal (revision : Nat) (verdict : Verdict) (baseline : Option Int) (campaigns : List Nat) (outcome : SelectOutcome)
deriving DecidableEq, Repr

/-- Where a custody action stands, 01 R11. -/
inductive ActionPhase where
  | reading (got : List Word)
  | routing (words : RecordWords) (read : RouteRead)
  | writing (after : AfterWrites)
  | entry (outcome : SelectOutcome)
  | comparing
deriving DecidableEq, Repr

/-- The custody action in flight, 01 R11. `disturbed` says that a claim or a leave has changed the map entry since it began. -/
structure Action where
  req : CustodyReq
  disturbed : Bool := false
  phase : ActionPhase
deriving DecidableEq, Repr

/-- The Custody Unit, 01 R10 R11. The map lists the entries that differ from the power-on value, by rising index. The queue
keeps with each request the event it arrived at. -/
structure Custody where
  map : List (Nat × MapEntry) := []
  action : Option Action := none
  queue : List (Nat × CustodyReq) := []
deriving DecidableEq, Repr

/-! ### Windows (chapter 2) -/

/-- Window phases, coded as in 11 R183. -/
inductive Phase where
  | idle | pending | opened | settling | queued | verifying | finished
deriving DecidableEq, Repr

/-- Arm words, 02 R31. -/
inductive Arm where
  | disarmed | armed | cancel
deriving DecidableEq, Repr

/-- Finish reasons, coded as in 11 R183; `unlisted` is a code that names none, as a load may find it in a phase word (02 R45,
assumption 12). -/
inductive Reason where
  | none | verified | aborted | cancelled | invalid
  | unlisted (code : Nat)
deriving DecidableEq, Repr

/-- Queue and campaign classes. -/
inductive Class where
  | urgent | routine
deriving DecidableEq, Repr

/-- One Window Table copy, 02 R30, at its power-on value, 02 R44. -/
structure Window where
  phase : Phase := .idle
  arm : Arm := .disarmed
  openTime : Word := 0
  closeTime : Word := 0
  settle : Nat := 0
  cls : Class := .routine
  spans : List Nat := []
  expiry : Word := 0
  campaign : Nat := 0
  reason : Reason := .none
deriving DecidableEq, Repr

/-- The fields a refresh reads, by the phase at its start, 02 R32. -/
inductive RefreshKind where
  | full | armAndClose | armOnly
deriving DecidableEq, Repr

/-- A window refresh in flight, 02 R32. -/
structure Refresh where
  window : Fin 64
  kind : RefreshKind
  got : List Word := []
deriving DecidableEq, Repr

/-- The Window Scheduler, 02. The fence lists the spans whose count is not 0, by rising span. `phaseDue` is the model's own
scratch: the windows whose phase word the present event still has to write (assumption 8). -/
structure Scheduler where
  windows : Vector Window 64 := Vector.replicate 64 {}
  fence : List (Nat × Nat) := []
  slotWait : List (Fin 64) := []
  refresh : Option Refresh := none
  phaseDue : List (Fin 64) := []
deriving DecidableEq, Repr

/-! ### Campaigns (chapter 3) -/

/-- Campaign states, coded as in 11 R182. -/
inductive CampaignState where
  | free | selecting | draining | aborting
deriving DecidableEq, Repr

/-- What started a campaign, 03 R46. -/
inductive Origin where
  | none
  | window (index : Fin 64)
  | request (slot : Nat)
deriving DecidableEq, Repr

/-- Span sets, 03 R46. -/
inductive SpanSet where
  | list (spans : List Nat)
  | all
  | single (circuit : Nat)
deriving DecidableEq, Repr

/-- The thirteen counts of a campaign, 03 R60. -/
structure Counts where
  selected : Nat := 0
  continuous : Nat := 0
  degraded : Nat := 0
  misrouted : Nat := 0
  broken : Nat := 0
  incomplete : Nat := 0
  noEcho : Nat := 0
  notTested : Nat := 0
  edited : Nat := 0
  routeInvalid : Nat := 0
  deferred : Nat := 0
  abandoned : Nat := 0
  joined : Nat := 0
deriving DecidableEq, Repr

/-- The reach of a head-end node, 04 R70 R72. -/
structure Reach where
  primary : Fin 4 := 0
  alternate : Fin 4 := 0
  altValid : Bool := false
deriving DecidableEq, Repr

/-- The selection step in flight, 03 R53: waiting for its custody action, for its Reach Map read (04 R72), or as a waiting
claimant (03 R59). -/
inductive SelStep where
  | idle
  | custody
  | reach (sel : Selected)
  | claim (sel : Selected) (reach : Reach)
deriving DecidableEq, Repr

/-- One campaign slot, 03 R46. -/
structure Campaign where
  id : Nat := 0
  state : CampaignState := .free
  origin : Origin := .none
  cls : Class := .routine
  spanSet : SpanSet := .all
  cursor : Nat := 0
  owned : Nat := 0
  joinedOut : Nat := 0
  counts : Counts := {}
  startTime : Word := 0
  step : SelStep := .idle
deriving DecidableEq, Repr

/-- The Campaign Controller, 03. `offer` is the slot whose SUMMARY is handed to the Journal Writer, 03 R66. -/
structure Controller where
  slots : Vector Campaign 8 := Vector.replicate 8 {}
  nextId : Nat := 1
  offer : Option (Fin 8) := none
deriving DecidableEq, Repr

/-! ### Probe Table (chapter 4) -/

/-- Probe entry states, 04 R70. -/
inductive EntryState where
  | free | queued | waiting | backoff | concluded | comparing
deriving DecidableEq, Repr

/-- Outcomes of a concluded entry, 04 R70. -/
inductive Conclusion where
  | noEcho | notTested
deriving DecidableEq, Repr

/-- One probe entry, 04 R70. The slot is its index; the timer is in ms, `none` when stopped. -/
structure Entry where
  generation : Nat := 0
  state : EntryState := .free
  circuit : Nat := 0
  trail : Nat := 0
  head : Nat := 0
  reach : Reach := {}
  link : Fin 4 := 0
  cls : Class := .routine
  owner : Fin 8 := 0
  joiners : List (Fin 8) := []
  attempts : Nat := 0
  timer : Option Nat := none
  spans : List Nat := []
  revision : Nat := 0
  outcome : Option Conclusion := none
deriving DecidableEq, Repr

/-- One link's launch queues and scheduler, 04 R75 R76 R77. `gap` is the rest of the launch gap in ms, `none` when passed. -/
structure LaunchSched where
  urgent : List (Fin 64) := []
  routine : List (Fin 64) := []
  turn : Class := .urgent
  count : Nat := 0
  gap : Option Nat := none
deriving DecidableEq, Repr

/-- The Probe Table, 04. -/
structure Probes where
  entries : Vector Entry 64 := Vector.replicate 64 {}
  outcomes : List (Fin 64) := []
  scheds : Vector LaunchSched 4 := Vector.replicate 4 {}
deriving DecidableEq, Repr

/-! ### Links and echoes (chapter 5) -/

/-- Link monitor states, coded as in 11 R182. -/
inductive LinkState where
  | up | failing | down | restoring
deriving DecidableEq, Repr

/-- The five counters of a link, 05 R105. -/
structure LinkCounters where
  sent : Nat := 0
  accepted : Nat := 0
  rejected : Nat := 0
  dropped : Nat := 0
  stale : Nat := 0
deriving DecidableEq, Repr

/-- One Link Unit, 05. `started` says that a load has started the monitor and no fault or reset has stopped it since; the
head of `txQueue` is the frame being sent. -/
structure Link where
  signal : Bool := false
  state : LinkState := .down
  holdOff : Option Nat := none
  started : Bool := false
  txQueue : List (List Byte) := []
  counters : LinkCounters := {}
deriving DecidableEq, Repr

/-- One stamp of an echo item, 05 R103. Powers are in 0.01 dBm, clamped; −32768 is unknown. -/
structure Stamp where
  node : Nat
  ingress : Nat
  egress : Nat
  channel : Nat
  rx : Int
  tx : Int
deriving DecidableEq, Repr

/-- One echo item, 05 R103. -/
structure Echo where
  tag : Nat
  trail : Nat
  brk : Bool
  overflow : Bool
  breakNode : Nat
  breakReason : Nat
  stamps : List Stamp
  link : Fin 4
deriving DecidableEq, Repr

/-! ### Comparator (chapters 6 and 7) -/

/-- Finding kinds, coded as in 11 R184. -/
inductive FindingKind where
  | missing | foreign | port | channel | loop | brk | lossHigh | lossLow | drift | unmeasured
deriving DecidableEq, Repr

/-- One finding, 06 R116. -/
structure Finding where
  kind : FindingKind
  routePos : Nat
  stampPos : Nat
  node : Nat
  detail : Int
deriving DecidableEq, Repr

/-- What a comparison rests on, 06 R109 R125. -/
inductive Evidence where
  | echo (e : Echo)
  | outcome (c : Conclusion)
deriving DecidableEq, Repr

/-- The item in hand. -/
structure Item where
  entry : Fin 64
  evidence : Evidence
deriving DecidableEq, Repr

/-- Comparator phases, 06 6.1. -/
inductive CmpPhase where
  | idle | custody | aligning | writing | handed
deriving DecidableEq, Repr

/-- The writes of 06 R120 that a comparison makes, in its order. -/
inductive CmpWrite where
  | baseline | captured | loss | time | engine
deriving DecidableEq, Repr

/-- What a comparison comes to, 07 R143 and 06 R120. -/
structure CmpResult where
  verdict : Verdict
  findings : List Finding
  worst : Int
  loss : Int
  complete : Bool
  baselineAfter : Option Int
  engine : EngineState
deriving DecidableEq, Repr

/-- The Comparator, 06. `lastOutcome` is the served-last marker (OUTCOME when set); `request`, `revision`,
`baseline` and `route` are the values the custody action read, 06 R111. -/
structure Comparator where
  phase : CmpPhase := .idle
  item : Option Item := none
  lastOutcome : Bool := true
  request : HostRequest := .vacant
  revision : Nat := 0
  baseline : Option Int := none
  route : Option Route := none
  result : Option CmpResult := none
  writes : List CmpWrite := []
deriving DecidableEq, Repr

/-! ### Journal (chapter 8) -/

/-- The three sources of entries in their cyclic order, 08 R148. -/
inductive Source where
  | comparator | custody | campaign
deriving DecidableEq, Repr

/-- Journal Writer phases, 08 8.2. -/
inductive JournalPhase where
  | idle | writing | stalled
deriving DecidableEq, Repr

/-- An entry as its source forms it, 11 R184: the kind and the words after the 8-byte header. -/
structure JournalEntry where
  kind : Nat
  body : List Word
deriving DecidableEq, Repr

/-- The Journal Writer, 08. The stall flag is the phase STALLED. -/
structure Journal where
  base : Word := 0
  size : Nat := 0
  w : Nat := 0
  m : Nat := 0
  seq : Word := 1
  phase : JournalPhase := .idle
  hand : Option (Source × JournalEntry) := none
  nextW : Nat := 0
  cmpOffer : Option JournalEntry := none
  custOffer : Option JournalEntry := none
  campOffer : Option JournalEntry := none
  served : Source := .campaign
deriving DecidableEq, Repr

/-! ### Request Reader (chapter 9) -/

/-- Sweep phases, 09 R157. -/
inductive SweepPhase where
  | idle | custody | windows | requests
deriving DecidableEq, Repr

/-- The stage of the slot in hand, 09 R164: none, its control word being read, its arguments being read (with the control
word as read), or answered with its two writes outstanding. -/
inductive ReqStage where
  | none
  | control
  | args (control : Word) (got : List Word)
  | answered
deriving DecidableEq, Repr

/-- The Request Reader, 09 R157. -/
structure Reader where
  nextIndex : Nat := 0
  lastEpoch : Word := 0
  pollTimer : Option Nat := none
  sweep : SweepPhase := .idle
  sweepPending : Bool := false
  sweepStart : Word := 0
  circuit : Nat := 0
  window : Nat := 0
  processed : Nat := 0
  stage : ReqStage := .none
deriving DecidableEq, Repr

/-! ### Memory Master and Loader (chapter 10) -/

/-- The eleven requesters, 10 R178. -/
inductive Requester where
  | loader | custody | window | campaign | probe
  | link (k : Fin 4)
  | journal | request
deriving DecidableEq, Repr

/-- What an access is for: what its requester does when told of its end. `plain` asks for nothing (status words, the words of
a change before its last one, and accesses whose operation has been given up). -/
inductive Tag where
  | plain
  | controlBlock
  | haltedWrite
  | loadWindow
  | refresh
  | phaseWord
  | record
  | route
  | actionEnd
  | cmpWrite
  | cmpEngine
  | reach (slot : Fin 8)
  | journalEnd
  | epoch
  | reqControl
  | reqArg
  | reqHandback
deriving DecidableEq, Repr

/-- One access: one 32-bit read, or one 32-bit write of `data`, 10 R178. -/
structure Access where
  addr : Word
  write : Option Word
  tag : Tag
deriving DecidableEq, Repr

/-- The Memory Master, 10 R178. -/
structure Master where
  queues : Vector (List Access) 11 := Vector.replicate 11 []
  port : Option (Requester × Access) := none
  served : Requester := .request
  timer : Option Nat := none
deriving DecidableEq, Repr

/-- The load steps that take time, 10 R174 R176. -/
inductive LoadStep where
  | none | controlBlock | windows | custody
deriving DecidableEq, Repr

/-- The Loader, 10. -/
structure Loader where
  step : LoadStep := .none
  got : List Word := []
  index : Nat := 0
  epoch : Word := 0
  stopHanded : Bool := false
deriving DecidableEq, Repr

/-! ### The whole part -/

/-- The state of the part. -/
structure State where
  /-- Commands waiting, first in first out (the model's own). -/
  pending : List Instr := []
  /-- The part is held: from power-on, and while the reset pin is asserted, 10 R180. -/
  held : Bool := false
  regs : Regs := {}
  clock : Clock := {}
  params : Params := {}
  loader : Loader := {}
  master : Master := {}
  /-- Shared memory as the part's writes have left it (assumption 2). -/
  memory : List Host.Cell := []
  custody : Custody := {}
  sched : Scheduler := {}
  ctrl : Controller := {}
  probes : Probes := {}
  links : Vector Link 4 := Vector.replicate 4 {}
  fifo : List Echo := []
  cmp : Comparator := {}
  journal : Journal := {}
  reader : Reader := {}
  /-- Counter the free values of Config are applied to (the model's own, assumption 5). -/
  freeCount : Nat := 0
  /-- Number of the present event (the model's own, assumption 5). -/
  eventNo : Nat := 0
deriving DecidableEq, Repr

/-- No command stops the part: an event the spec calls a fault is a state of the part (run state FAULTED), so the model has no
fault of its own. Nothing raises one. -/
inductive Fault where
deriving DecidableEq, Repr

/-- Refusals. -/
inductive Refusal where
  /-- A command without a meaning; raised by no arm of `exec` (safe: a refusal proves nothing about the hardware). -/
  | notModelled (mnemonic : String)
deriving DecidableEq, Repr

/-- The part right after the reset pin is released: HALTED, every register and collection at its power-on value, 10 R180. -/
def State.reset : State := {}

end Sys2Proof.Machine
end

