-- ==== Sys2Proof/Machine/Fields.lean ====
section
/-! DEFINITION. Bit fields, clamping, sparse tables, fixed tables and shared-memory bytes: the small operations every block
uses (00 5.1, 11 R181). -/

namespace Sys2Proof.Machine

/-! ### Bit fields -/

/-- The field in bits `hi..lo` of a word, unsigned (11 R181). -/
def bits (w : Word) (hi lo : Nat) : Nat := (w.extractLsb hi lo).toNat

/-- The field in bits `hi..lo` of a route word (11 R181: bits 31..0 in the low word). -/
def routeBits (w : RouteWord) (hi lo : Nat) : Nat := (w.extractLsb hi lo).toNat

/-- A field value placed at bit `lo` with `width` bits, every other bit 0. -/
def field (v width lo : Nat) : Word := BitVec.ofNat 32 (v % 2 ^ width * 2 ^ lo)

/-- A two's-complement 16-bit value (11 R181). -/
def signed16 (n : Nat) : Int := (BitVec.ofNat 16 n).toInt

/-- The 16 bits of a signed value (11 R181). -/
def unsigned16 (i : Int) : Nat := (BitVec.ofInt 16 i).toNat

/-- The halfword of a halfword list at index `i`: even ones in bits 15..0, odd ones in bits 31..16 (11 R181). -/
def halfword (ws : List Word) (i : Nat) : Nat :=
  let w := ws.getD (i / 2) 0
  if i % 2 = 0 then bits w 15 0 else bits w 31 16

/-- An address `offset` bytes after `base`; sums wrap modulo 2^32 (assumption 9). -/
def addrOf (base : Word) (offset : Nat) : Word := base + BitVec.ofNat 32 offset

/-! ### Clamping and saturation (00 5.1) -/

def clampNat (lo hi n : Nat) : Nat := max lo (min hi n)

def clampInt (lo hi i : Int) : Int := max lo (min hi i)

/-- Saturation to −32767..32767 (07 R138 R142; the clamp of R136 R137). -/
def saturate (i : Int) : Int := clampInt (-32767) 32767 i

/-- A counter that saturates at 4294967295 (05 R105). -/
def bump (n : Nat) : Nat := min (n + 1) 4294967295

/-- A NET_TIME value some seconds later, saturated at 4294967295 (02 R27). -/
def timePlus (t : Word) (seconds : Nat) : Word := BitVec.ofNat 32 (min (t.toNat + seconds) 4294967295)

/-! ### Sparse tables: entries that differ from a default, by strictly rising key -/

/-- The value at a key: the default where the table lists none. -/
def sparseGet {α : Type} (d : α) : List (Nat × α) → Nat → α
  | [], _ => d
  | (k, v) :: rest, i => if i = k then v else sparseGet d rest i

/-- An entry placed before the first entry of a higher key. -/
def sparseInsert {α : Type} : List (Nat × α) → Nat → α → List (Nat × α)
  | [], i, x => [(i, x)]
  | (k, v) :: rest, i, x => if i < k then (i, x) :: (k, v) :: rest else (k, v) :: sparseInsert rest i x

/-- The table without a key. -/
def sparseErase {α : Type} (m : List (Nat × α)) (i : Nat) : List (Nat × α) := m.filter (fun p => decide (p.1 ≠ i))

/-- The table with the value at a key replaced; a default value is not listed. -/
def sparsePut {α : Type} [DecidableEq α] (d : α) (m : List (Nat × α)) (i : Nat) (x : α) : List (Nat × α) :=
  if x = d then sparseErase m i else sparseInsert (sparseErase m i) i x

/-- The canonical form: keys strictly rising and no default value listed. -/
def sparseWf {α : Type} [DecidableEq α] (d : α) (m : List (Nat × α)) : Bool :=
  decide (m.Pairwise (fun p q => p.1 < q.1)) && m.all (fun p => decide (p.2 ≠ d))

/-! ### Shared-memory bytes -/

/-- The canonical form of memory: addresses strictly rising, no byte listed that an unlisted address reads as. -/
def memoryWf (m : List Host.Cell) : Bool := sparseWf (0 : Byte) m

/-- One byte; an unlisted byte reads as 0 (assumption 2). -/
def readByte (m : List Host.Cell) (a : Nat) : Byte := sparseGet 0 m a

/-- Byte `i` of a word, little-endian (00 5.2). -/
def byteOf (w : Word) (i : Nat) : Byte := w.extractLsb' (8 * i) 8

/-- The bytes of a word written at an address, little-endian (00 5.2, 11 R181). -/
def writeWord (m : List Host.Cell) (a : Word) (w : Word) : List Host.Cell :=
  sparsePut 0 (sparsePut 0 (sparsePut 0 (sparsePut 0 m a.toNat (byteOf w 0)) (a.toNat + 1) (byteOf w 1))
    (a.toNat + 2) (byteOf w 2)) (a.toNat + 3) (byteOf w 3)

/-- The word at an address as memory holds it. -/
def readWord (m : List Host.Cell) (a : Word) : Word :=
  (readByte m (a.toNat + 3) ++ readByte m (a.toNat + 2) ++ readByte m (a.toNat + 1) ++ readByte m a.toNat : BitVec 32)

/-! ### Fixed tables -/

/-- A fixed table with one element replaced. -/
def vput {α : Type} {n : Nat} (v : Vector α n) (i : Fin n) (x : α) : Vector α n := v.set i.val x i.isLt

/-- A fixed table with every element replaced by its image. -/
def vmap {α β : Type} {n : Nat} (f : α → β) (v : Vector α n) : Vector β n := ⟨⟨v.toList.map f⟩, by simp⟩

/-- The first element of a list that passes a test. -/
def pick {α : Type} (p : α → Bool) : List α → Option α
  | [] => none
  | a :: rest => if p a then some a else pick p rest

/-- How many elements of a list pass a test. -/
def countWhere {α : Type} (p : α → Bool) (l : List α) : Nat := (l.filter p).length

end Sys2Proof.Machine
end

