-- ==== Sys2Proof/Machine/Operands.lean ====
section
/-! DEFINITION. The layouts of chapter 11: what the words and frames that come into the part mean, and the words and frames
the part forms. -/

namespace Sys2Proof.Machine

/-! ### Codes (10 R168 R174, 11 R182 to R184) -/

def RunState.code : RunState → Nat
  | .halted => 0 | .loading => 1 | .running => 2 | .stopping => 3 | .faulted => 4

def FaultCode.code : FaultCode → Nat
  | .none => 0 | .baseAlign => 1 | .circuitCount => 2 | .poolSize => 3 | .slotCount => 4 | .journalSize => 5
  | .tableAlign => 6 | .bus => 7

def EngineState.code : EngineState → Nat
  | .ignored => 0 | .watched => 1 | .claimed => 2 | .rejected => 3 | .released => 4

/-- An engine state code that is none of the five is taken as IGNORED (01 R22). -/
def engineOfCode (n : Nat) : EngineState :=
  if n = 1 then .watched else if n = 2 then .claimed else if n = 3 then .rejected else if n = 4 then .released else .ignored

def Verdict.code : Verdict → Nat
  | .none => 0 | .continuous => 1 | .degraded => 2 | .misrouted => 3 | .broken => 4 | .incomplete => 5 | .noEcho => 6
  | .notTested => 7 | .edited => 8 | .routeInvalid => 9

def Phase.code : Phase → Nat
  | .idle => 0 | .pending => 1 | .opened => 2 | .settling => 3 | .queued => 4 | .verifying => 5 | .finished => 6

/-- A previous phase code that is none of the seven is taken as IDLE (02 R45). -/
def phaseOfCode (n : Nat) : Phase :=
  if n = 1 then .pending else if n = 2 then .opened else if n = 3 then .settling else if n = 4 then .queued
  else if n = 5 then .verifying else if n = 6 then .finished else .idle

def Reason.code : Reason → Nat
  | .none => 0 | .verified => 1 | .aborted => 2 | .cancelled => 3 | .invalid => 4
  | .unlisted code => code

/-- The finish reason of a code; a code above 4 is kept as it is (assumption 12). -/
def reasonOfCode (n : Nat) : Reason :=
  if n = 0 then .none else if n = 1 then .verified else if n = 2 then .aborted else if n = 3 then .cancelled
  else if n = 4 then .invalid else .unlisted n

def LinkState.code : LinkState → Nat
  | .up => 0 | .failing => 1 | .down => 2 | .restoring => 3

def CampaignState.code : CampaignState → Nat
  | .free => 0 | .selecting => 1 | .draining => 2 | .aborting => 3

def FindingKind.code : FindingKind → Nat
  | .missing => 1 | .foreign => 2 | .port => 3 | .channel => 4 | .loop => 5 | .brk => 6 | .lossHigh => 7 | .lossLow => 8
  | .drift => 9 | .unmeasured => 10

def Class.code : Class → Nat
  | .urgent => 1 | .routine => 0

/-- A class code other than URGENT is taken as ROUTINE (02 R31, 09 R162). -/
def classOfCode (n : Nat) : Class := if n = 1 then .urgent else .routine

/-! ### Circuit records (11 R183) -/

/-- Any code but ACTIVE and RECALL is acted on as VACANT (01 R2). -/
def hostRequest (host : Word) : HostRequest :=
  if bits host 1 0 = 1 then .active else if bits host 1 0 = 2 then .recall else .vacant

def hostRevision (host : Word) : Nat := bits host 31 16

def engineWord (e : EngineState) (verdict campaign : Nat) : Word :=
  field e.code 3 0 ||| field verdict 4 4 ||| field campaign 8 8

/-- The map entry a load takes from an engine word: CLAIMED is taken as WATCHED (01 R22). -/
def mapEntryOfWord (w : Word) : MapEntry :=
  let e := engineOfCode (bits w 2 0)
  { engine := if e = .claimed then .watched else e
    release := .none
    lastVerdict := bits w 7 4
    lastCampaign := bits w 15 8 }

/-- A baseline as read: absent when its present flag is clear or its value is −32768 (07 R140). -/
def baselineOfWord (w : Word) : Option Int :=
  let v := signed16 (bits w 15 0)
  if bits w 16 16 = 1 ∧ v ≠ -32768 then some v else none

/-- An absent baseline is written as the value 0 with the present flag clear (01 R4). -/
def baselineWord : Option Int → Word
  | none => 0
  | some v => field (unsigned16 v) 16 0 ||| field 1 1 16

def lossWord (loss : Int) (complete : Bool) : Word :=
  field (unsigned16 loss) 16 0 ||| field complete.toNat 1 16

/-- The offsets of a record's words that a custody action reads, in the order it reads them (assumption 3). -/
def recordOffsets : List Nat := [0x00, 0x0C, 0x10, 0x14, 0x18, 0x1C]

def recordWords (ws : List Word) : RecordWords :=
  { host := ws.getD 0 0, engine := ws.getD 1 0, captured := ws.getD 2 0
    baseline := ws.getD 3 0, loss := ws.getD 4 0, time := ws.getD 5 0 }

/-! ### Routes (01 R5 to R9, 11 R183) -/

/-- A channel that a route or a record may hold: 0..95, or 127 for "any" (01 R2 R8). -/
def channelOk (c : Nat) : Bool := decide (c ≤ 95) || decide (c = 127)

/-- The attributes a route starts with, from record words 0x04 and 0x08 (01 R7). -/
def startAttr (w4 w8 : Word) : Attr :=
  { tolClass := bits w4 26 24, stamping := true, lossCheck := bits w4 27 27 = 1, channel := bits w8 30 24 }

def trailOf (w4 : Word) : Nat := bits w4 23 0
def routeOffset (w8 : Word) : Nat := bits w8 15 0
def routeLength (w8 : Word) : Nat := bits w8 23 16

/-- The checks made from the circuit record alone (01 R9 step 1). -/
def recordRouteOk (poolSize : Nat) (w8 : Word) : Bool :=
  decide (2 ≤ routeLength w8) && decide (routeLength w8 ≤ 48) &&
  decide (routeOffset w8 + routeLength w8 ≤ poolSize) && channelOk (bits w8 30 24)

def hopOfWord (a : Attr) (w : RouteWord) : Hop :=
  { node := routeBits w 24 14, ingress := routeBits w 7 2, egress := routeBits w 13 8, span := routeBits w 36 25
    spanLoss := routeBits w 49 37, hopLoss := routeBits w 60 50, attr := a }

def attrOfWord (w : RouteWord) : Attr :=
  { tolClass := routeBits w 4 2, stamping := routeBits w 5 5 = 1, lossCheck := routeBits w 6 6 = 1
    channel := routeBits w 14 8 }

/-- Where a route read stands after the words read so far. -/
inductive RouteStatus where
  | more (attr : Attr) (hops : List Hop)
  | invalid
  | valid (route : Route)
deriving DecidableEq, Repr

/-- The checks of 01 R8 that one more HOP meets or fails, given the HOPs before it. -/
def hopOk (hops : List Hop) (h : Hop) : Bool :=
  decide (h.node ≤ 1023) && decide (h.spanLoss ≤ 5000) && decide (h.hopLoss ≤ 2000) && decide (hops.length < 32) &&
  hops.all (fun g => decide (g.span ≠ 4095)) &&
  (!hops.isEmpty || h.attr.stamping) &&
  (!h.attr.stamping || hops.all (fun g => !g.attr.stamping || decide (g.node ≠ h.node)))

/-- The checks of 01 R8 made at the END word: 2 to 32 HOPs, the last one STAMPING with span 4095. -/
def endOk (hops : List Hop) : Bool :=
  decide (2 ≤ hops.length) &&
  match hops.getLast? with
  | some h => h.attr.stamping && decide (h.span = 4095)
  | none => false

/-- One route word taken into a route read (01 R6 to R8). -/
def routeStep (attr : Attr) (hops : List Hop) (w : RouteWord) : RouteStatus :=
  if routeBits w 1 0 = 1 then
    let h := hopOfWord attr w
    if hopOk hops h then .more attr (hops ++ [h]) else .invalid
  else if routeBits w 1 0 = 2 then
    let a := attrOfWord w
    if channelOk a.channel then .more a hops else .invalid
  else if routeBits w 1 0 = 3 then
    if endOk hops then .valid ⟨hops⟩ else .invalid
  else .invalid

/-- The words read so far taken in order; the read stops at the first word that decides it (01 R9). -/
def routeScan (attr : Attr) (hops : List Hop) : List RouteWord → RouteStatus
  | [] => .more attr hops
  | w :: rest =>
    match routeStep attr hops w with
    | .more a hs => routeScan a hs rest
    | done => done

/-- The status of a route read of `length` words: a route that reaches the last word the length allows without an END is
invalid (01 R8 "END present"). -/
def routeStatus (attr : Attr) (length : Nat) (words : List RouteWord) : RouteStatus :=
  match routeScan attr [] words with
  | .more a hs => if length ≤ words.length then .invalid else .more a hs
  | done => done

/-- The expected sequence e_1 to e_n (01 R7). -/
def Route.expected (r : Route) : List Hop := r.hops.filter (fun h => h.attr.stamping)

/-- The span list: the span of every HOP except the last (01 R7). -/
def Route.spanList (r : Route) : List Nat := r.hops.dropLast.map (fun h => h.span)

/-- The contents of one segment: the expected losses of its spans and the hop losses of its PASSIVE hops (01 R7). -/
structure Segment where
  spanLosses : List Nat
  passiveLosses : List Nat
deriving DecidableEq, Repr

/-- The segments that end at the stamping hops of a list, `acc` being the contents gathered since the last stamping hop. -/
def segmentsFrom (acc : Segment) : List Hop → List Segment
  | [] => []
  | h :: rest =>
    if h.attr.stamping then acc :: segmentsFrom ⟨[h.spanLoss], []⟩ rest
    else segmentsFrom ⟨acc.spanLosses ++ [h.spanLoss], acc.passiveLosses ++ [h.hopLoss]⟩ rest

/-- The segment contents of a route in order: segment a, from e_a to e_{a+1}, stands at index a − 1 (01 R7). -/
def Route.segments (r : Route) : List Segment :=
  match r.hops with
  | [] => []
  | h :: rest => segmentsFrom ⟨[h.spanLoss], []⟩ rest

/-! ### Window entries (02 R31, 11 R183) -/

/-- Any arm code but ARMED and CANCEL is taken as DISARMED (02 R31). -/
def armOfWord (w : Word) : Arm :=
  if bits w 1 0 = 1 then .armed else if bits w 1 0 = 2 then .cancel else .disarmed

/-- The settle copied: 0 is replaced by the default settle, above 3600 is clamped (02 R31). -/
def settleOf (dflt n : Nat) : Nat := if n = 0 then dflt else min n 3600

/-- The span list formed from ids in entry order: ids of 4095 or above and ids already placed are skipped (02 R31). -/
def distinctSpans (acc : List Nat) : List Nat → List Nat
  | [] => acc
  | x :: rest => if 4095 ≤ x ∨ x ∈ acc then distinctSpans acc rest else distinctSpans (acc ++ [x]) rest

/-- The span list of a window entry, from its twenty host-written words (02 R31). -/
def windowSpans (ws : List Word) : List Nat :=
  let n := min 32 (bits (ws.getD 3 0) 31 24)
  distinctSpans [] ((List.range n).map (halfword (ws.drop 4)))

/-- The copy of a window entry's host-written fields (02 R31); phase, expiry, campaign and reason are as given. -/
def copyWindow (dflt : Nat) (ws : List Word) (old : Window) : Window :=
  { old with
    arm := armOfWord (ws.getD 0 0)
    openTime := ws.getD 1 0
    closeTime := ws.getD 2 0
    settle := settleOf dflt (bits (ws.getD 3 0) 15 0)
    cls := classOfCode (bits (ws.getD 3 0) 23 16)
    spans := windowSpans ws }

/-- The word at 0x58 of a window entry. -/
def phaseWord (w : Window) : Word :=
  field w.phase.code 3 0 ||| field w.reason.code 3 4 ||| field w.campaign 8 8

/-- The offsets of the host-written words of a window entry, the sixteen span-id words among them whatever the span count
(DESIGN CHOICE, assumption 3: 02 R31 names the first span-count ids, 02 R32 R45 all host-written fields). -/
def windowOffsets : List Nat := (List.range 20).map (4 * ·)

/-- The words a refresh reads, by kind (02 R32). -/
def refreshOffsets : RefreshKind → List Nat
  | .full => windowOffsets
  | .armAndClose => [0x00, 0x08]
  | .armOnly => [0x00]

/-- The words the load's window step reads of one entry (02 R45, 11 R183). -/
def loadWindowOffsets : List Nat := windowOffsets ++ [0x58, 0x5C]

/-! ### Control Block (11 R182) -/

/-- The 34 host-written words 0x000 to 0x084. -/
def controlBlockOffsets : List Nat := (List.range 34).map (4 * ·)

/-- Word at a byte offset of the Control Block words as read. -/
def cbWord (ws : List Word) (offset : Nat) : Word := ws.getD (offset / 4) 0

/-- The structural checks of 10 R174 on the words read, in its order: the fault code and the offset of the word that holds the
failing value. -/
def structuralFault (ws : List Word) : Option (FaultCode × Nat) :=
  let cc := (cbWord ws 0x004).toNat
  let js := (cbWord ws 0x028).toNat
  if cc = 0 ∨ 4096 < cc then some (.circuitCount, 0x004)
  else if bits (cbWord ws 0x00C) 15 0 = 0 then some (.poolSize, 0x00C)
  else if (cbWord ws 0x01C).toNat = 0 then some (.slotCount, 0x01C)
  else if js < 1024 ∨ 1048576 < js ∨ js % 8 ≠ 0 then some (.journalSize, 0x028)
  else
    match pick (fun o => decide ((cbWord ws o).toNat % 8 ≠ 0)) [0x000, 0x008, 0x010, 0x018, 0x020, 0x024] with
    | some o => some (.tableAlign, o)
    | none => none

/-- One link's parameters, clamped (05 R92). -/
def linkParamsOf (ws : List Word) (k : Nat) : LinkParams :=
  let a := cbWord ws (0x064 + 8 * k)
  let b := cbWord ws (0x068 + 8 * k)
  { enabled := bits a 0 0 = 1
    linkage := if bits a 11 8 = 1 then .bind else .reroute
    holdOff := clampNat 1 255 (bits a 31 16)
    limit := clampNat 1 32 (bits b 15 0)
    gap := min 255 (bits b 31 16) }

/-- One tolerance class, clamped (07 R129). -/
def toleranceOf (ws : List Word) (k : Nat) : Tolerance :=
  let a := cbWord ws (0x030 + 4 * k)
  { upper := min 1000 (bits a 15 0), lower := min 1000 (bits a 31 16) }

/-- The parameters the clamping step holds (10 R175). -/
def paramsOf (ws : List Word) : Params :=
  { circuitTable := cbWord ws 0x000
    circuitCount := (cbWord ws 0x004).toNat
    routePool := cbWord ws 0x008
    poolSize := bits (cbWord ws 0x00C) 15 0
    windowList := cbWord ws 0x010
    windowCount := min 64 (cbWord ws 0x014).toNat
    requestList := cbWord ws 0x018
    slotCount := clampNat 1 32 (cbWord ws 0x01C).toNat
    reachMap := cbWord ws 0x020
    journalBase := cbWord ws 0x024
    journalSize := (cbWord ws 0x028).toNat
    ownNode := min 1023 (bits (cbWord ws 0x02C) 15 0)
    tolerance := ⟨#[toleranceOf ws 0, toleranceOf ws 1, toleranceOf ws 2, toleranceOf ws 3, toleranceOf ws 4,
      toleranceOf ws 5, toleranceOf ws 6, toleranceOf ws 7], rfl⟩
    driftLimit := min 2000 (bits (cbWord ws 0x050) 15 0)
    probeTimeout := clampNat 1 1000 (bits (cbWord ws 0x054) 15 0)
    backoffBase := clampNat 1 1000 (bits (cbWord ws 0x054) 31 16)
    retries := min 7 (bits (cbWord ws 0x058) 7 0)
    depth := clampNat 1 64 (bits (cbWord ws 0x058) 15 8)
    urgentWeight := clampNat 1 15 (bits (cbWord ws 0x058) 23 16)
    routineWeight := clampNat 1 15 (bits (cbWord ws 0x058) 31 24)
    weighted := bits (cbWord ws 0x05C) 7 0 = 1
    pollPeriod := clampNat 1 255 (bits (cbWord ws 0x05C) 31 16)
    defaultSettle := clampNat 1 3600 (bits (cbWord ws 0x060) 15 0)
    links := ⟨#[linkParamsOf ws 0, linkParamsOf ws 1, linkParamsOf ws 2, linkParamsOf ws 3], rfl⟩ }

/-! ### Request slots and the Reach Map (09 R162, 11 R183) -/

/-- Request kinds, 11 R183. -/
inductive RequestKind where
  | verifyCircuit | verifySpans | verifyAll | abort | unknown
deriving DecidableEq, Repr

/-- An owner code other than ENGINE is taken as HOST (09 R162). -/
def ownerIsEngine (w : Word) : Bool := bits w 1 0 = 1

def requestKind (w : Word) : RequestKind :=
  if bits w 11 8 = 1 then .verifyCircuit else if bits w 11 8 = 2 then .verifySpans
  else if bits w 11 8 = 3 then .verifyAll else if bits w 11 8 = 4 then .abort else .unknown

def requestClass (w : Word) : Class := classOfCode (bits w 17 16)

/-- The control word that hands a slot back: owner HOST, the kind and class as read (09 R162). Owner code 0 is written for HOST
(DESIGN CHOICE, assumption 25: 11 R183 lists no code but ENGINE's, and R162 takes every other one as HOST). -/
def handbackWord (w : Word) : Word := field (bits w 11 8) 4 8 ||| field (bits w 17 16) 2 16

/-- Result codes, 11 R183. -/
inductive ResultCode where
  | started | noSlot | badArgs | notWatched | aborted | noSuchCampaign
deriving DecidableEq, Repr

def ResultCode.code : ResultCode → Nat
  | .started => 1 | .noSlot => 2 | .badArgs => 3 | .notWatched => 4 | .aborted => 5 | .noSuchCampaign => 6

def resultWord (c : ResultCode) (campaign : Nat) : Word := field c.code 8 0 ||| field campaign 8 8

/-- The argument words a kind calls for (09 R164). -/
def argOffsets : RequestKind → List Nat
  | .verifyCircuit => [0x04]
  | .abort => [0x04]
  | .verifySpans => [0x04, 0x08, 0x0C, 0x10, 0x14]
  | .verifyAll => []
  | .unknown => []

/-- The reach in the byte of a Reach Map word that belongs to a node at byte position `pos` (11 R183). -/
def reachOfWord (w : Word) (pos : Nat) : Reach :=
  let b := (byteOf w pos).toNat
  { primary := Fin.ofNat 4 b, alternate := Fin.ofNat 4 (b / 4), altValid := b / 16 % 2 = 1 }

/-! ### Journal entries (11 R184) -/

/-- Length in bytes: the 8-byte header and the body. -/
def JournalEntry.bytes (e : JournalEntry) : Nat := 8 + 4 * e.body.length

/-- The words of an entry: header with kind and length in 8-byte units, sequence number, body. -/
def JournalEntry.words (e : JournalEntry) (seq : Word) : List Word :=
  (field e.kind 8 0 ||| field (e.bytes / 8) 8 8) :: seq :: e.body

/-- The WRAP header: kind 3, length 1, sequence 0. -/
def wrapWords : List Word := [field 3 8 0 ||| field 1 8 8, 0]

def Finding.words (f : Finding) : List Word :=
  [field f.kind.code 8 0 ||| field f.routePos 8 8 ||| field f.stampPos 8 16,
   field f.node 16 0 ||| field (unsigned16 f.detail) 16 16]

/-- The fields of a VERDICT entry (01 R14, 06 R121). -/
structure VerdictFields where
  circuit : Nat
  revision : Nat
  verdict : Verdict
  engine : EngineState
  complete : Bool := false
  brk : Bool := false
  overflow : Bool := false
  attempts : Nat := 0
  time : Word
  stampCount : Nat := 0
  findings : List Finding := []
  loss : Int := 0
  worst : Int := 0
  before : Option Int
  after : Option Int
  campaigns : List Nat
deriving DecidableEq, Repr

/-- The first 16 findings are kept, the rest counted as dropped (06 R117). -/
def findingsKept (fs : List Finding) : List Finding := fs.take 16

def findingsDropped (fs : List Finding) : Nat := min (fs.length - 16) 65535

/-- A baseline in a journal entry: −32768 for an absent one (06 R121). -/
def baselineField (b : Option Int) : Nat := unsigned16 (b.getD (-32768))

/-- Byte `i` of a campaign-id list, 0 beyond its end. -/
def idByte (ids : List Nat) (i : Nat) : Nat := ids.getD i 0

def verdictEntry (v : VerdictFields) : JournalEntry :=
  let kept := findingsKept v.findings
  { kind := 1
    body :=
      [ field v.circuit 16 0 ||| field v.revision 16 16,
        field v.verdict.code 8 0 ||| field v.engine.code 8 8 ||| field v.complete.toNat 1 16 |||
          field v.brk.toNat 1 17 ||| field v.overflow.toNat 1 18 ||| field v.attempts 8 24,
        v.time,
        field v.stampCount 8 0 ||| field kept.length 8 8 ||| field (findingsDropped v.findings) 16 16,
        field (unsigned16 v.loss) 16 0 ||| field (unsigned16 v.worst) 16 16,
        field (baselineField v.before) 16 0 ||| field (baselineField v.after) 16 16,
        field v.campaigns.length 4 0,
        field (idByte v.campaigns 0) 8 0 ||| field (idByte v.campaigns 1) 8 8 |||
          field (idByte v.campaigns 2) 8 16 ||| field (idByte v.campaigns 3) 8 24,
        field (idByte v.campaigns 4) 8 0 ||| field (idByte v.campaigns 5) 8 8 |||
          field (idByte v.campaigns 6) 8 16 ||| field (idByte v.campaigns 7) 8 24,
        0, 0, 0 ] ++ kept.flatMap Finding.words }

/-- Origin kind code, 11 R182 R184. -/
def Origin.kindCode : Origin → Nat
  | .none => 0 | .window _ => 1 | .request _ => 2

def Origin.index : Origin → Nat
  | .none => 0 | .window w => w.val | .request k => k

/-- The SUMMARY entry of a campaign (03 R65, 11 R184). -/
def summaryEntry (c : Campaign) (endTime : Word) : JournalEntry :=
  { kind := 2
    body :=
      [ field c.id 8 0 ||| field c.origin.kindCode 8 8 ||| field c.origin.index 8 16 ||| field c.cls.code 1 24 |||
          field (decide (c.state = .aborting)).toNat 1 25,
        field c.cursor 16 0,
        c.startTime,
        endTime,
        field c.counts.selected 16 0 ||| field c.counts.joined 16 16,
        field c.counts.continuous 16 0 ||| field c.counts.degraded 16 16,
        field c.counts.misrouted 16 0 ||| field c.counts.broken 16 16,
        field c.counts.incomplete 16 0 ||| field c.counts.noEcho 16 16,
        field c.counts.notTested 16 0 ||| field c.counts.edited 16 16,
        field c.counts.routeInvalid 16 0 ||| field c.counts.deferred 16 16,
        field c.counts.abandoned 16 0,
        0, 0, 0, 0, 0 ] }

/-- A campaign slot word of the Status Area (03 R48, 11 R182): a FREE slot shows id 0, FREE, origin none and cursor 0. -/
def slotWord (c : Campaign) : Word :=
  if c.state = .free then 0
  else field c.id 8 0 ||| field c.state.code 2 8 ||| field c.origin.kindCode 2 10 ||| field c.origin.index 6 12 |||
    field c.cursor 13 18

/-! ### Frames (11 R185, 05 R102 R103) -/

/-- One ones'-complement addition of 16-bit values with end-around carry (05 R102). -/
def onesAdd (a b : Nat) : Nat := if 0xFFFF < a + b then a + b - 0xFFFF else a + b

/-- The frame's bytes in pairs, big-endian, a last odd byte padded with a zero byte (05 R102). -/
def frameWords : List Byte → List Nat
  | [] => []
  | [a] => [a.toNat * 256]
  | a :: b :: rest => (a.toNat * 256 + b.toNat) :: frameWords rest

/-- The ones'-complement sum of a frame (05 R102). -/
def frameSum (bs : List Byte) : Nat := (frameWords bs).foldl onesAdd 0

def frameByte (bs : List Byte) (i : Nat) : Nat := (bs.getD i 0).toNat

/-- A big-endian 16-bit field of a frame. -/
def frameHalf (bs : List Byte) (i : Nat) : Nat := frameByte bs i * 256 + frameByte bs (i + 1)

/-- The two bytes of a big-endian 16-bit field. -/
def halfBytes (n : Nat) : List Byte := [BitVec.ofNat 8 (n / 256), BitVec.ofNat 8 n]

/-- The PROBE frame without its check word. -/
def probeHead (own tag head trail : Nat) : List Byte :=
  [1, 0] ++ halfBytes own ++ halfBytes tag ++ halfBytes head ++
  [BitVec.ofNat 8 (trail / 65536), BitVec.ofNat 8 (trail / 256), BitVec.ofNat 8 trail, 0]

/-- The PROBE frame: the check word is the complement of the sum of the first six 16-bit words (11 R185). -/
def probeFrame (own tag head trail : Nat) : List Byte :=
  probeHead own tag head trail ++ halfBytes (0xFFFF - frameSum (probeHead own tag head trail))

/-- The five checks of 05 R102; true when the frame passes them all. -/
def echoOk (bs : List Byte) : Bool :=
  let m := frameByte bs 12
  decide (frameSum bs = 0xFFFF) && decide (frameByte bs 0 = 2) && decide (m ≤ 40) &&
  !(decide (m = 0) && decide (frameByte bs 1 % 2 = 0)) && decide (bs.length = 16 + 10 * m)

/-- A power as placed in an echo item: clamped to −5000..2500, −32768 kept as unknown (05 R103). -/
def clampPower (n : Nat) : Int :=
  let v := signed16 n
  if v = -32768 then v else clampInt (-5000) 2500 v

/-- Stamp number `s` (from 0) of an echo frame (11 R185). -/
def stampAt (bs : List Byte) (s : Nat) : Stamp :=
  let o := 14 + 10 * s
  { node := frameHalf bs o, ingress := frameByte bs (o + 2), egress := frameByte bs (o + 3), channel := frameByte bs (o + 4)
    rx := clampPower (frameHalf bs (o + 6)), tx := clampPower (frameHalf bs (o + 8)) }

/-- The echo item a receiver forms (05 R103): the break fields are taken only when BREAK is set. -/
def echoItem (link : Fin 4) (bs : List Byte) : Echo :=
  let brk := decide (frameByte bs 1 % 2 = 1)
  { tag := frameHalf bs 4
    trail := frameByte bs 8 * 65536 + frameByte bs 9 * 256 + frameByte bs 10
    brk := brk
    overflow := decide (frameByte bs 1 / 2 % 2 = 1)
    breakNode := if brk then frameHalf bs 6 else 0
    breakReason := if brk then frameByte bs 11 else 0
    stamps := (List.range (frameByte bs 12)).map (stampAt bs)
    link := link }

end Sys2Proof.Machine
end

