-- ==== Sys2Proof/Machine/Flags.lean ====
section
/-! DEFINITION. The event bits, the interrupt line and the register window as the host reads it (10 R168 R171 R172). -/

namespace Sys2Proof.Machine

/-- The ten event bits, from bit 0 (10 R168 R171). -/
inductive Event where
  | loadDone | loadFault | busFault | journalNew | journalStall | campaignDone | requestDone | linkChange | windowChange
  | regRefused
deriving DecidableEq, Repr

def Event.index : Event → Nat
  | .loadDone => 0 | .loadFault => 1 | .busFault => 2 | .journalNew => 3 | .journalStall => 4 | .campaignDone => 5
  | .requestDone => 6 | .linkChange => 7 | .windowChange => 8 | .regRefused => 9

/-- The mask of one event bit. -/
def Event.bit (e : Event) : BitVec 10 := 1#10 <<< e.index

/-- An event bit is set whatever EVENT_MASK and IRQ_EN hold; a bit already set stays set (10 R171). -/
def setEvent (e : Event) (s : State) : State := { s with regs := { s.regs with events := s.regs.events ||| e.bit } }

/-- Whether an event bit is set. -/
def State.hasEvent (s : State) (e : Event) : Bool := s.regs.events.getLsbD e.index

/-- The interrupt line: asserted while IRQ_EN is set and some bit is set in both EVENTS and EVENT_MASK (10 R172); released
while the part is held (10 R180). -/
def irqLine (s : State) : Bool := !s.held && s.regs.irqEn && decide (s.regs.events &&& s.regs.mask ≠ 0)

/-- CONTROL as read (10 R168): HALT reads 0. -/
def controlWord (r : Regs) : Word :=
  field r.runState.code 3 0 ||| field r.faultCode.code 4 4 ||| field r.pollNow.toNat 1 9 ||| field r.irqEn.toNat 1 10

/-- A read of SELECT (10 R168). While the part is held the model answers 0, the reset value of the index. -/
def readSelect (s : State) : Word := s.regs.select.setWidth 32

/-- A read of DATA: the register at the current index as it stands (10 R168); 0 while the part is held (10 R180). -/
def readData (s : State) : Word :=
  if s.held then 0
  else match s.regs.select.toNat with
    | 0 => 0x4A840C01
    | 1 => controlWord s.regs
    | 2 => s.regs.events.setWidth 32
    | 3 => s.regs.mask.setWidth 32
    | 4 => s.regs.blockBase
    | 5 => BitVec.ofNat 32 s.journal.w
    | 6 => BitVec.ofNat 32 s.journal.m
    | 7 => s.clock.netTime
    | 8 => s.regs.faultAddr
    | _ => 0

end Sys2Proof.Machine
end

