-- ==== Sys2Proof/Machine/Ops.lean ====
section
/-! DEFINITION. Operations shared by the blocks: reading and replacing one element of a block's table, the Memory Master
(10 R178), and the Status Area writes (11 R182). Every operation is total. -/

namespace Sys2Proof.Machine

/-! ### One element of a table -/

def State.run (s : State) : RunState := s.regs.runState

def setRun (r : RunState) (s : State) : State := { s with regs := { s.regs with runState := r } }

def State.entry (s : State) (i : Fin 64) : Entry := s.probes.entries.get i

def modEntry (i : Fin 64) (f : Entry → Entry) (s : State) : State :=
  { s with probes := { s.probes with entries := vput s.probes.entries i (f (s.entry i)) } }

def State.launchSched (s : State) (k : Fin 4) : LaunchSched := s.probes.scheds.get k

def modSched (k : Fin 4) (f : LaunchSched → LaunchSched) (s : State) : State :=
  { s with probes := { s.probes with scheds := vput s.probes.scheds k (f (s.launchSched k)) } }

def setOutcomes (l : List (Fin 64)) (s : State) : State := { s with probes := { s.probes with outcomes := l } }

def State.campaign (s : State) (i : Fin 8) : Campaign := s.ctrl.slots.get i

def modCampaign (i : Fin 8) (f : Campaign → Campaign) (s : State) : State :=
  { s with ctrl := { s.ctrl with slots := vput s.ctrl.slots i (f (s.campaign i)) } }

def modCounts (i : Fin 8) (f : Counts → Counts) (s : State) : State :=
  modCampaign i (fun c => { c with counts := f c.counts }) s

def setOffer (o : Option (Fin 8)) (s : State) : State := { s with ctrl := { s.ctrl with offer := o } }

def State.link (s : State) (k : Fin 4) : Link := s.links.get k

def modLink (k : Fin 4) (f : Link → Link) (s : State) : State := { s with links := vput s.links k (f (s.link k)) }

def modCounters (k : Fin 4) (f : LinkCounters → LinkCounters) (s : State) : State :=
  modLink k (fun l => { l with counters := f l.counters }) s

def State.linkParams (s : State) (k : Fin 4) : LinkParams := s.params.links.get k

def State.window (s : State) (w : Fin 64) : Window := s.sched.windows.get w

def modWindow (w : Fin 64) (f : Window → Window) (s : State) : State :=
  { s with sched := { s.sched with windows := vput s.sched.windows w (f (s.window w)) } }

/-- The Circuit State Map entry of a circuit (01 R10). -/
def State.mapEntry (s : State) (c : Nat) : MapEntry := sparseGet {} s.custody.map c

def setMapEntry (c : Nat) (e : MapEntry) (s : State) : State :=
  { s with custody := { s.custody with map := sparsePut {} s.custody.map c e } }

def setAction (a : Option Action) (s : State) : State := { s with custody := { s.custody with action := a } }

def modReader (f : Reader → Reader) (s : State) : State := { s with reader := f s.reader }

def modCmp (f : Comparator → Comparator) (s : State) : State := { s with cmp := f s.cmp }

def modJournal (f : Journal → Journal) (s : State) : State := { s with journal := f s.journal }

def modLoader (f : Loader → Loader) (s : State) : State := { s with loader := f s.loader }

/-- The fence count of a span (02 R40). -/
def State.fenceCount (s : State) (span : Nat) : Nat := sparseGet 0 s.sched.fence span

/-- Some span of a list is fenced (02 R40 R43). -/
def State.anyFenced (s : State) (spans : List Nat) : Bool := spans.any (fun x => decide (0 < s.fenceCount x))

/-- A free value is used up: the counter the constants of Config are applied to advances. -/
def useFree (s : State) : State := { s with freeCount := s.freeCount + 1 }

/-! ### Memory Master (10 R178) -/

/-- The requesters in their cyclic order (10 R178). -/
def requesterOrder : List Requester :=
  [.loader, .custody, .window, .campaign, .probe, .link 0, .link 1, .link 2, .link 3, .journal, .request]

def Requester.index : Requester → Fin 11
  | .loader => 0 | .custody => 1 | .window => 2 | .campaign => 3 | .probe => 4
  | .link k => ⟨5 + k.val, by omega⟩
  | .journal => 9 | .request => 10

def State.queue (s : State) (r : Requester) : List Access := s.master.queues.get r.index

def setQueue (r : Requester) (q : List Access) (s : State) : State :=
  { s with master := { s.master with queues := vput s.master.queues r.index q } }

/-- An access joins the tail of its requester's queue (10 R178). -/
def hand (r : Requester) (a : Access) (s : State) : State := setQueue r (s.queue r ++ [a]) s

def handRead (r : Requester) (addr : Word) (tag : Tag) (s : State) : State := hand r ⟨addr, none, tag⟩ s

def handWrite (r : Requester) (addr data : Word) (tag : Tag) (s : State) : State := hand r ⟨addr, some data, tag⟩ s

/-- The requesters in the order the arbiter looks at them after the one it served last (10 R178). -/
def turnOrder (r : Requester) : List Requester :=
  requesterOrder.drop (r.index.val + 1) ++ requesterOrder.take (r.index.val + 1)

/-- When the port is free and some queue is not empty, the next requester's oldest access is issued and the bus timeout timer
is set to 1 ms (10 R178). Nothing is issued in FAULTED or while the part is held. -/
def issue (s : State) : State :=
  if s.held ∨ s.run = .faulted ∨ s.master.port.isSome then s
  else
    match pick (fun r => !(s.queue r).isEmpty) (turnOrder s.master.served) with
    | none => s
    | some r =>
      match s.queue r with
      | [] => s
      | a :: rest =>
        let t := setQueue r rest s
        { t with master := { t.master with port := some (r, a), served := r, timer := some 1 } }

/-- The access on the bus leaves the port; a write's word is in memory (10 R178). -/
def endAccess (a : Access) (s : State) : State :=
  { s with
    master := { s.master with port := none, timer := none }
    memory := match a.write with
      | some w => writeWord s.memory a.addr w
      | none => s.memory }

/-- The access on the bus is cut off: a write may or may not have landed (10 R180; assumption 5). -/
def cutAccess (s : State) : State :=
  let t := { s with master := { s.master with port := none, timer := none } }
  match s.master.port with
  | some (_, a) =>
    match a.write with
    | some w => useFree { t with memory := if Config.cutOffWriteLands s.freeCount then writeWord s.memory a.addr w else s.memory }
    | none => t
  | none => t

/-- Every queued access is discarded (10 R178 R180). -/
def dropQueues (s : State) : State := { s with master := { s.master with queues := Vector.replicate 11 [] } }

/-- The tag of an access whose operation has been given up: it completes and asks for nothing. -/
def orphanAccess (p : Tag → Bool) (a : Access) : Access := if p a.tag then { a with tag := .plain } else a

/-- The operations whose tags satisfy `p` are given up; their accesses already handed still complete (10 R173 R176 R178). -/
def orphan (p : Tag → Bool) (s : State) : State :=
  { s with
    master := { s.master with
      queues := vmap (fun q => q.map (orphanAccess p)) s.master.queues
      port := s.master.port.map (fun x => (x.1, orphanAccess p x.2)) } }

/-- The Memory Master has an access outstanding: on the bus or in a queue (10 R177). -/
def State.masterBusy (s : State) : Bool :=
  s.master.port.isSome || requesterOrder.any (fun r => !(s.queue r).isEmpty)

/-! ### Status Area (11 R182) -/

/-- A Status Area word is written by its owner, in the Control Block of the last load that passed its checks (11 R182, assumption 23). -/
def statusWrite (r : Requester) (offset : Nat) (data : Word) (s : State) : State :=
  handWrite r (addrOf s.params.controlBlock offset) data .plain s

/-- The run state field (10 R173). -/
def runStateWrite (r : RunState) (tag : Tag) (s : State) : State :=
  handWrite .loader (addrOf s.params.controlBlock 0x100) (field r.code 3 0) tag s

/-- The state field of a link (05 R98). -/
def linkStateWrite (k : Fin 4) (s : State) : State :=
  statusWrite (.link k) (0x110 + 24 * k.val) (field (s.link k).state.code 2 0) s

/-- The state field is written in LOADING and RUNNING only (05 R98). -/
def linkStateReport (k : Fin 4) (s : State) : State :=
  if s.run = .loading ∨ s.run = .running then linkStateWrite k s else s

/-- The five counters of a link (05 R105). -/
def linkCountersWrite (k : Fin 4) (s : State) : State :=
  let c := (s.link k).counters
  let o := 0x114 + 24 * k.val
  statusWrite (.link k) (o + 16) (BitVec.ofNat 32 c.stale)
    (statusWrite (.link k) (o + 12) (BitVec.ofNat 32 c.dropped)
      (statusWrite (.link k) (o + 8) (BitVec.ofNat 32 c.rejected)
        (statusWrite (.link k) (o + 4) (BitVec.ofNat 32 c.accepted)
          (statusWrite (.link k) o (BitVec.ofNat 32 c.sent) s))))

/-- A link's six words of the Status Area (05 R105). -/
def linkStatusWrite (k : Fin 4) (s : State) : State := linkCountersWrite k (linkStateWrite k s)

/-- The number of probe entries not FREE (04 R70). -/
def State.occupancy (s : State) : Nat :=
  countWhere (fun i => decide ((s.entry i).state ≠ .free)) (List.finRange 64)

/-- A link's WAITING count (04 R78). -/
def State.waitingCount (s : State) (k : Fin 4) : Nat :=
  countWhere (fun i => decide ((s.entry i).state = .waiting) && decide ((s.entry i).link = k)) (List.finRange 64)

/-- A campaign slot's word (03 R48). -/
def slotWordWrite (i : Fin 8) (s : State) : State :=
  statusWrite .campaign (0x170 + 4 * i.val) (slotWord (s.campaign i)) s

/-- The eight campaign slot words, in ascending slot (03 R48 R68). -/
def slotWordsWrite (s : State) : State := (List.finRange 8).foldl (fun t i => slotWordWrite i t) s

/-! ### Circuit records (01 R1 R3) -/

/-- The address of a word of a circuit record (01 R1). -/
def recordAddr (s : State) (circuit offset : Nat) : Word := addrOf s.params.circuitTable (32 * circuit + offset)

/-- The engine word of a circuit is written from its map entry (01 R3 R10). -/
def engineWordWrite (circuit : Nat) (tag : Tag) (s : State) : State :=
  let e := s.mapEntry circuit
  handWrite .custody (recordAddr s circuit 0x0C) (engineWord e.engine e.lastVerdict e.lastCampaign) tag s

end Sys2Proof.Machine
end

