-- ==== Sys2Proof/Machine/Steps.lean ====
section
/-! DEFINITION. What several blocks share about circuits and campaigns: asking for a custody action, leaving CLAIMED, counting
outcomes, and beginning and ending a selection step (chapters 1 and 3). -/

namespace Sys2Proof.Machine

/-! ### Custody requests and the map (01 R11 R19) -/

def CustodyReq.circuit : CustodyReq → Nat
  | .sweep c => c
  | .load c => c
  | .select _ _ c _ => c
  | .compare _ c => c

/-- A request joins the Custody Unit's queue, marked with the event it arrives at (01 R11). -/
def askCustody (r : CustodyReq) (s : State) : State :=
  { s with custody := { s.custody with queue := s.custody.queue ++ [(s.eventNo, r)] } }

/-- A claim or a leave changes a circuit's map entry: an action in flight on that circuit notes it (01 R11). -/
def disturb (circuit : Nat) (s : State) : State :=
  match s.custody.action with
  | some a => if a.req.circuit = circuit then setAction (some { a with disturbed := true }) s else s
  | none => s

/-- The engine state a circuit leaves CLAIMED for (01 R19): `base` unless a release is pending. -/
def afterRelease (r : Release) (base : EngineState) : EngineState :=
  match r with
  | .none => base
  | .toReleased => .released
  | .toIgnored => .ignored

/-- A circuit leaves CLAIMED in the map (01 R19): the pending release becomes NONE. -/
def leave (circuit : Nat) (base : EngineState) (s : State) : State :=
  let e := s.mapEntry circuit
  disturb circuit (setMapEntry circuit { e with engine := afterRelease e.release base, release := .none } s)

/-! ### Counting (03 R60 R61) -/

/-- A verdict of a kind is counted (03 R60). -/
def Counts.addVerdict (c : Counts) : Verdict → Counts
  | .none => c
  | .continuous => { c with continuous := c.continuous + 1 }
  | .degraded => { c with degraded := c.degraded + 1 }
  | .misrouted => { c with misrouted := c.misrouted + 1 }
  | .broken => { c with broken := c.broken + 1 }
  | .incomplete => { c with incomplete := c.incomplete + 1 }
  | .noEcho => { c with noEcho := c.noEcho + 1 }
  | .notTested => { c with notTested := c.notTested + 1 }
  | .edited => { c with edited := c.edited + 1 }
  | .routeInvalid => { c with routeInvalid := c.routeInvalid + 1 }

/-- Deferral at selection or at claim: selected and DEFERRED (03 R55 R57). -/
def Counts.addSelectedDeferred (c : Counts) : Counts := { c with selected := c.selected + 1, deferred := c.deferred + 1 }

/-- The sum that a SUMMARY's selected count equals (03 R60). -/
def Counts.closed (c : Counts) : Nat :=
  c.continuous + c.degraded + c.misrouted + c.broken + c.incomplete + c.noEcho + c.notTested + c.edited + c.routeInvalid +
  c.deferred + c.abandoned

/-- The owner closes its interest in an entry: one count, owned-outstanding falls by one (03 R58 R61). -/
def closeOwner (i : Fin 8) (f : Counts → Counts) (s : State) : State :=
  modCampaign i (fun c => { c with owned := c.owned - 1, counts := f c.counts }) s

/-- A joiner closes its interest: one count, joined-outstanding falls by one (03 R58 R61). -/
def closeJoiner (f : Counts → Counts) (s : State) (i : Fin 8) : State :=
  modCampaign i (fun c => { c with joinedOut := c.joinedOut - 1, counts := f c.counts }) s

/-- The owner and every joiner of an entry close their interest with the same count (03 R61). -/
def closeInterests (e : Entry) (f : Counts → Counts) (s : State) : State :=
  e.joiners.foldl (closeJoiner f) (closeOwner e.owner f s)

/-! ### Selection steps (03 R53) -/

/-- The circuit a campaign's step considers: its named circuit for SINGLE, the cursor otherwise. -/
def Campaign.stepCircuit (c : Campaign) : Nat :=
  match c.spanSet with
  | .single k => k
  | .list _ => c.cursor
  | .all => c.cursor

/-- A step begins by asking for a selection custody action (03 R53). -/
def beginStep (i : Fin 8) (s : State) : State :=
  let c := s.campaign i
  askCustody (.select i c.id c.stepCircuit true) (modCampaign i (fun c => { c with step := .custody }) s)

/-- The cursor after a step (03 R53): the circuit count for SINGLE, one further otherwise. -/
def Campaign.nextCursor (c : Campaign) (count : Nat) : Nat :=
  match c.spanSet with
  | .single _ => count
  | .list _ => c.cursor + 1
  | .all => c.cursor + 1

/-- A step ends with the cursor advanced: past the last circuit the campaign enters DRAINING and its slot word is written,
otherwise the next step begins while the run state is RUNNING (03 R48 R53 R69). -/
def endStep (i : Fin 8) (s : State) : State :=
  let next := (s.campaign i).nextCursor s.params.circuitCount
  let t := modCampaign i (fun c => { c with cursor := next, step := .idle }) s
  if s.params.circuitCount ≤ next then
    slotWordWrite i (modCampaign i (fun c => { c with state := .draining }) t)
  else if s.run = .running then beginStep i t
  else t

/-- A step is begun afresh for the same circuit (03 R56). -/
def restartStep (i : Fin 8) (s : State) : State :=
  if s.run = .running then beginStep i s else modCampaign i (fun c => { c with step := .idle }) s

end Sys2Proof.Machine
end

