-- ==== Sys2Proof/Machine/ProbeTable.lean ====
section
/-! DEFINITION. The Probe Table: link choice, launch queues, claims, conclusions, withdrawal, link changes and the launch
schedulers (chapter 4), with the transmitters they commit frames to (05 R99). -/

namespace Sys2Proof.Machine

/-! ### Link choice and queues (04 R74 R75) -/

def State.linkUp (s : State) (k : Fin 4) : Bool := decide ((s.link k).state = .up)

/-- Link choice from an entry's reach and the link states of the moment; `none` under BIND with the primary not UP
(04 R74). -/
def chooseLink (s : State) (r : Reach) : Option (Fin 4) :=
  match (s.linkParams r.primary).linkage with
  | .reroute =>
    if s.linkUp r.primary then some r.primary
    else if r.altValid && s.linkUp r.alternate then some r.alternate
    else some r.primary
  | .bind => if s.linkUp r.primary then some r.primary else none

/-- The queue of a class. -/
def LaunchSched.queueOf (q : LaunchSched) : Class → List (Fin 64)
  | .urgent => q.urgent
  | .routine => q.routine

def LaunchSched.setQueueOf (q : LaunchSched) (c : Class) (l : List (Fin 64)) : LaunchSched :=
  match c with
  | .urgent => { q with urgent := l }
  | .routine => { q with routine := l }

/-- An entry becomes QUEUED and joins the tail of its class's queue on a link (04 R75). -/
def enqueue (i : Fin 64) (k : Fin 4) (s : State) : State :=
  let c := (s.entry i).cls
  modSched k (fun q => q.setQueueOf c (q.queueOf c ++ [i]))
    (modEntry i (fun e => { e with state := .queued, link := k, timer := none }) s)

/-- An entry leaves the queue of its class on its current link; the rest keep their order (04 R75). -/
def dequeue (i : Fin 64) (s : State) : State :=
  let e := s.entry i
  modSched e.link (fun q => q.setQueueOf e.cls ((q.queueOf e.cls).erase i)) s

/-- A QUEUED entry leaves its queue; an entry in any other state stands in none (04 R75). -/
def dequeueIfQueued (i : Fin 64) (s : State) : State :=
  if (s.entry i).state = .queued then dequeue i s else s

/-- An entry is concluded and joins the tail of the Outcome List (04 R82). -/
def conclude (i : Fin 64) (c : Conclusion) (s : State) : State :=
  let t := modEntry i (fun e => { e with state := .concluded, timer := none, outcome := some c }) s
  setOutcomes (t.probes.outcomes ++ [i]) t

/-! ### Claims (04 R73) -/

/-- The lowest-numbered FREE entry. -/
def freeEntry (s : State) : Option (Fin 64) :=
  pick (fun i => decide ((s.entry i).state = .free)) (List.finRange 64)

/-- The entry that works on a circuit, if any (01 R10). -/
def holdingEntry (s : State) (circuit : Nat) : Option (Fin 64) :=
  pick (fun i => decide ((s.entry i).state ≠ .free) && decide ((s.entry i).circuit = circuit)) (List.finRange 64)

/-- An entry's tag (04 R71). -/
def entryTag (i : Fin 64) (e : Entry) : Nat := e.generation * 64 + i.val

/-- The entry as filled by a claim (04 R73 steps 2 to 4). -/
def claimedEntry (e : Entry) (sel : Selected) (r : Reach) (cls : Class) (owner : Fin 8) : Entry :=
  { generation := (e.generation + 1) % 1024
    state := .queued
    circuit := sel.circuit
    trail := sel.trail
    head := sel.head
    reach := r
    link := r.primary
    cls := cls
    owner := owner
    spans := sel.spans
    revision := sel.revision }

/-- A claim takes an entry (04 R73, 01 R18, 03 R57): the entry is filled, the map entry becomes CLAIMED with pending release
NONE and its engine word is written, the campaign counts selected and owns one more; the link is chosen, or under BIND with the
primary not UP the entry is concluded NOT_TESTED. -/
def allocate (slot : Fin 8) (sel : Selected) (r : Reach) (i : Fin 64) (s : State) : State :=
  let cls := (s.campaign slot).cls
  let t := modEntry i (fun e => claimedEntry e sel r cls slot) s
  let t := setMapEntry sel.circuit { t.mapEntry sel.circuit with engine := .claimed, release := .none } t
  let t := engineWordWrite sel.circuit .plain (disturb sel.circuit t)
  let t := modCampaign slot
    (fun c => { c with owned := c.owned + 1, counts := { c.counts with selected := c.counts.selected + 1 } }) t
  match chooseLink t r with
  | some k => enqueue i k t
  | none => conclude i .notTested t

/-! ### Freeing and withdrawal (04 R83 to R85) -/

/-- An entry returns to FREE: only its generation keeps a meaning (04 R70 R71). -/
def freeOne (i : Fin 64) (s : State) : State := modEntry i (fun e => { generation := e.generation }) s

/-- An entry that gave no verdict returns to FREE: it leaves its queue, its circuit leaves CLAIMED for WATCHED or as its pending
release says, and the engine word is written (01 R19, 04 R84 R85). -/
def releaseEntry (i : Fin 64) (s : State) : State :=
  let c := (s.entry i).circuit
  engineWordWrite c .plain (leave c .watched (freeOne i (dequeueIfQueued i s)))

/-- Withdrawal on fencing: owner and joiners count DEFERRED and the entry is released (03 R61, 04 R84). -/
def withdraw (i : Fin 64) (s : State) : State :=
  closeInterests (s.entry i) (fun c => { c with deferred := c.deferred + 1 }) (releaseEntry i s)

/-- An entry's states that a withdrawal or a release at an abort reaches (04 R84 R85). -/
def EntryState.isOpen : EntryState → Bool
  | .queued => true | .waiting => true | .backoff => true
  | .free => false | .concluded => false | .comparing => false

/-- A withdrawal request is taken whole: in ascending slot, every open entry that holds a span of the set (02 R41, 04 R84). -/
def withdrawSpans (spans : List Nat) (s : State) : State :=
  (List.finRange 64).foldl
    (fun t i => if (t.entry i).state.isOpen && (t.entry i).spans.any (fun x => spans.contains x) then withdraw i t else t) s

/-! ### Link changes (04 R86 to R88) -/

/-- Where a REROUTE entry queued on link `k` goes when `k` has gone DOWN: to the other link of its reach pair if that is UP
(04 R87). -/
def downTarget (s : State) (k : Fin 4) (r : Reach) : Option (Fin 4) :=
  if k = r.primary then (if r.altValid && s.linkUp r.alternate then some r.alternate else none)
  else (if s.linkUp r.primary then some r.primary else none)

/-- One queued entry when its link has gone DOWN (04 R87). -/
def entryLinkDown (k : Fin 4) (s : State) (i : Fin 64) : State :=
  let e := s.entry i
  match (s.linkParams e.reach.primary).linkage with
  | .reroute =>
    match downTarget s k e.reach with
    | some j => enqueue i j (dequeue i s)
    | none => s
  | .bind => conclude i (if e.attempts = 0 then .notTested else .noEcho) (dequeue i s)

/-- Link `k` has gone DOWN: its urgent queue in order, then its routine queue (04 R87). -/
def linkWentDown (k : Fin 4) (s : State) : State :=
  ((s.launchSched k).urgent ++ (s.launchSched k).routine).foldl (entryLinkDown k) s

/-- A queued entry standing on `j` may move to `k` when `k` comes UP: `k` is the other link of its reach pair, and the entry is
REROUTE (04 R88). -/
def movesTo (s : State) (j k : Fin 4) (e : Entry) : Bool :=
  decide ((s.linkParams e.reach.primary).linkage = .reroute) &&
  ((decide (e.reach.primary = k) && decide (j ≠ k)) ||
   (decide (e.reach.primary = j) && e.reach.altValid && decide (e.reach.alternate = k)))

def entryLinkUp (j k : Fin 4) (s : State) (i : Fin 64) : State :=
  if movesTo s j k (s.entry i) then enqueue i k (dequeue i s) else s

/-- The entries of one link's queues when link `k` has become UP; a link that is itself UP keeps its entries (04 R88). -/
def moveFrom (k : Fin 4) (s : State) (j : Fin 4) : State :=
  if j = k ∨ s.linkUp j then s
  else ((s.launchSched j).urgent ++ (s.launchSched j).routine).foldl (entryLinkUp j k) s

/-- Link `k` has become UP: the other links in ascending number, urgent before routine (04 R88). -/
def linkBecameUp (k : Fin 4) (s : State) : State := (List.finRange 4).foldl (moveFrom k) s

/-! ### Timeouts and backoff (04 R79 R80) -/

/-- Backoff length in ms after a number of attempts (04 R79). -/
def backoffMs (base attempts : Nat) : Nat := base * 10 * 2 ^ min (attempts - 1) 3

/-- The timer of a WAITING entry runs out (04 R79). -/
def timeoutEntry (i : Fin 64) (s : State) : State :=
  let e := s.entry i
  if e.attempts < 1 + s.params.retries then
    modEntry i (fun e => { e with state := .backoff, timer := some (backoffMs s.params.backoffBase e.attempts) }) s
  else conclude i .noEcho s

/-- The timer of a BACKOFF entry runs out: the link is chosen again (04 R80). -/
def backoffDone (i : Fin 64) (s : State) : State :=
  match chooseLink s (s.entry i).reach with
  | some k => enqueue i k s
  | none => conclude i .noEcho s

/-! ### Launch schedulers (04 R76 to R78, 05 R99) -/

/-- The other class. -/
def Class.other : Class → Class
  | .urgent => .routine
  | .routine => .urgent

/-- What a scheduler picks: the class whose head is launched and the turn and count that the launch leaves (04 R77). -/
structure PickResult where
  cls : Class
  turn : Class
  count : Nat
deriving DecidableEq, Repr

/-- STRICT: the urgent queue while it is non-empty. WEIGHTED: the queue of the turn while its count is below its weight,
else the turn passes; an empty other queue returns the turn (04 R77). `none` when both queues are empty. -/
def pickQueue (p : Params) (q : LaunchSched) : Option PickResult :=
  if p.weighted then
    let weight := match q.turn with | .urgent => p.urgentWeight | .routine => p.routineWeight
    if (q.queueOf q.turn).isEmpty && (q.queueOf q.turn.other).isEmpty then none
    else if !(q.queueOf q.turn).isEmpty && decide (q.count < weight) then some ⟨q.turn, q.turn, q.count + 1⟩
    else if (q.queueOf q.turn.other).isEmpty then some ⟨q.turn, q.turn, 1⟩
    else some ⟨q.turn.other, q.turn.other, 1⟩
  else if !q.urgent.isEmpty then some ⟨.urgent, q.turn, q.count⟩
  else if !q.routine.isEmpty then some ⟨.routine, q.turn, q.count⟩
  else none

/-- The conditions of a launch but for the queues (04 R76 R89). -/
def launchReady (k : Fin 4) (s : State) : Bool :=
  decide (s.run = .running) && s.linkUp k && decide (s.waitingCount k < (s.linkParams k).limit) &&
  (s.launchSched k).gap.isNone && decide (s.journal.phase ≠ .stalled)

/-- A frame committed to a transmitter joins its queue, or is discarded when the queue holds 32 (05 R99). -/
def commitFrame (k : Fin 4) (frame : List Byte) (s : State) : State :=
  modLink k (fun l => { l with txQueue := if l.txQueue.length < 32 then l.txQueue ++ [frame] else l.txQueue }) s

/-- A launch of an entry at the head of a queue of link `k` (04 R78): the frame is committed and counted, the entry becomes
WAITING with one more attempt and its timer at the probe timeout, and the launch gap starts. -/
def launch (k : Fin 4) (p : PickResult) (i : Fin 64) (s : State) : State :=
  let e := s.entry i
  let gap := (s.linkParams k).gap
  let t := modSched k (fun q =>
    { q.setQueueOf p.cls ((q.queueOf p.cls).erase i) with
      turn := p.turn, count := p.count, gap := if gap = 0 then none else some gap }) s
  let t := commitFrame k (probeFrame s.params.ownNode (entryTag i e) e.head e.trail) t
  let t := modCounters k (fun c => { c with sent := bump c.sent }) t
  modEntry i (fun e => { e with state := .waiting, attempts := e.attempts + 1, timer := some (s.params.probeTimeout * 10) }) t

end Sys2Proof.Machine
end

