-- ==== Sys2Proof/Machine/Windows.lean ====
section
/-! DEFINITION. The Window Scheduler: the Span Fence Map, window evaluation, the refresh and the load of one window
(chapter 2). -/

namespace Sys2Proof.Machine

/-! ### Span Fence Map (02 R40 to R42) -/

def setFence (f : List (Nat × Nat)) (s : State) : State := { s with sched := { s.sched with fence := f } }

/-- One span's count rises by one. -/
def raiseOne (f : List (Nat × Nat)) (span : Nat) : List (Nat × Nat) := sparsePut 0 f span (sparseGet 0 f span + 1)

/-- One span's count falls by one. -/
def lowerOne (f : List (Nat × Nat)) (span : Nat) : List (Nat × Nat) := sparsePut 0 f span (sparseGet 0 f span - 1)

/-- The spans whose counts a raise takes from 0 to 1 (02 R41). -/
def newlyFenced (s : State) (spans : List Nat) : List Nat := spans.filter (fun x => decide (s.fenceCount x = 0))

/-- A window's fence is raised and the newly fenced spans are withdrawn from the Probe Table at the same event (02 R41). -/
def raiseFence (spans : List Nat) (s : State) : State :=
  withdrawSpans (newlyFenced s spans) (setFence (spans.foldl raiseOne s.sched.fence) s)

/-- A window's fence is lowered (02 R42). -/
def lowerFence (spans : List Nat) (s : State) : State := setFence (spans.foldl lowerOne s.sched.fence) s

/-! ### Phases (02 R26 to R29 R37) -/

/-- The window's phase word is due at the end of the present event (02 R37, assumption 8). -/
def markPhase (w : Fin 64) (s : State) : State :=
  if s.sched.phaseDue.contains w then s
  else { s with sched := { s.sched with phaseDue := s.sched.phaseDue ++ [w] } }

/-- A change of a window's phase, campaign id or finish reason. -/
def changeWindow (w : Fin 64) (f : Window → Window) (s : State) : State := markPhase w (modWindow w f s)

/-- The two writes of a phase word: the phase time, then the word at 0x58 (02 R37, 11 R183). -/
def phaseWordWrites (w : Fin 64) (s : State) : State :=
  let base := 96 * w.val
  handWrite .window (addrOf s.params.windowList (base + 0x58)) (phaseWord (s.window w)) .phaseWord
    (handWrite .window (addrOf s.params.windowList (base + 0x5C)) s.clock.netTime .plain s)

/-- The phase words due are handed over, one for each window (02 R37). -/
def flushPhaseWords (s : State) : State :=
  s.sched.phaseDue.foldl (fun t w => phaseWordWrites w t) { s with sched := { s.sched with phaseDue := [] } }

/-- The run states in which windows are evaluated (02 R26 R45; assumption 10): RUNNING, and LOADING from the end of the window step
on. -/
def State.evaluates (s : State) : Bool :=
  decide (s.run = .running) || (decide (s.run = .loading) && decide (s.loader.step = .custody))

/-- Entry into SETTLING: the settle expiry counts from now (02 R27). -/
def toSettling (w : Fin 64) (s : State) : State :=
  changeWindow w (fun x => { x with phase := .settling, expiry := timePlus s.clock.netTime x.settle }) s

/-- A SETTLING window whose settle expiry is reached becomes QUEUED: its fence is lowered and it joins the Slot Waiting List
(02 R28). -/
def settleCheck (w : Fin 64) (s : State) : State :=
  let x := s.window w
  if x.phase = .settling ∧ x.expiry ≤ s.clock.netTime then
    let t := lowerFence x.spans (changeWindow w (fun x => { x with phase := .queued }) s)
    { t with sched := { t.sched with slotWait := t.sched.slotWait ++ [w] } }
  else s

/-- Time acts on a PENDING or OPEN window (02 R27). -/
def openCheck (w : Fin 64) (s : State) : State :=
  let x := s.window w
  let now := s.clock.netTime
  if x.phase = .pending ∧ x.closeTime ≤ now then raiseFence x.spans (toSettling w s)
  else if x.phase = .pending ∧ x.openTime ≤ now then
    raiseFence x.spans (changeWindow w (fun x => { x with phase := .opened }) s)
  else if x.phase = .opened ∧ x.closeTime ≤ now then toSettling w s
  else s

/-- The evaluation of one window (02 R27 R28). -/
def evalWindow (w : Fin 64) (s : State) : State := settleCheck w (openCheck w s)

/-- The windows the last load counts, in ascending index (02 R26 R30). -/
def State.windowIndices (s : State) : List (Fin 64) :=
  (List.finRange 64).filter (fun w => decide (w.val < s.params.windowCount))

/-- The evaluation of every window, in the run states that evaluate (02 R26). -/
def evalWindows (s : State) : State :=
  if s.evaluates then s.windowIndices.foldl (fun t w => evalWindow w t) s else s

/-- The second event (02 R24). -/
def secondTick (s : State) : State :=
  evalWindows { s with clock := { netTime := s.clock.netTime + 1, subCount := 0 } }

/-! ### Refresh (02 R32 to R36) -/

/-- The times of a copy just taken decide between PENDING and FINISHED, INVALID (02 R33 R34). -/
def timesOk (x : Window) : Bool := decide (x.openTime < x.closeTime)

/-- The refresh of an IDLE window (02 R33). With DISARMED or CANCEL nothing changes: the copied arm word keeps its old value (DESIGN
CHOICE, assumption 26: R32 has a refresh take what it read, R33 has nothing written, and no rule reads the copy). -/
def refreshIdle (w : Fin 64) (ws : List Word) (s : State) : State :=
  if armOfWord (ws.getD 0 0) = .armed then
    let x := copyWindow s.params.defaultSettle ws (s.window w)
    if timesOk x then changeWindow w (fun _ => { x with phase := .pending, campaign := 0, reason := .none }) s
    else changeWindow w (fun _ => { x with phase := .finished, campaign := 0, reason := .invalid }) s
  else s

/-- The refresh of a PENDING window (02 R34). CANCEL and DISARMED take the arm word into the copy and no other field read (DESIGN
CHOICE, assumption 26: R34 names the phase and the finish reason alone). -/
def refreshPending (w : Fin 64) (ws : List Word) (s : State) : State :=
  match armOfWord (ws.getD 0 0) with
  | .cancel => changeWindow w (fun x => { x with arm := .cancel, phase := .finished, reason := .cancelled }) s
  | .disarmed => changeWindow w (fun x => { x with arm := .disarmed, phase := .idle }) s
  | .armed =>
    let x := copyWindow s.params.defaultSettle ws (s.window w)
    if timesOk x then modWindow w (fun _ => x) s
    else changeWindow w (fun _ => { x with phase := .finished, reason := .invalid }) s

/-- The refresh of an OPEN window (02 R35): `close` is the close time read. DISARMED is ignored: the copied arm word stays as well.
CANCEL takes the arm word into the copy and leaves the copied close time (DESIGN CHOICE for both, assumption 26). -/
def refreshOpen (w : Fin 64) (arm : Arm) (close : Word) (s : State) : State :=
  match arm with
  | .armed => modWindow w (fun x => { x with arm := .armed, closeTime := close }) s
  | .cancel => toSettling w (modWindow w (fun x => { x with arm := .cancel }) s)
  | .disarmed => s

/-- The refresh of a FINISHED window (02 R36). With ARMED or CANCEL nothing changes: the copied arm word keeps its old value (DESIGN
CHOICE, assumption 26: R32 has the refresh take the arm word, R36 has nothing written, and no rule reads the copy). -/
def refreshFinished (w : Fin 64) (arm : Arm) (s : State) : State :=
  match arm with
  | .disarmed => changeWindow w (fun x => { x with arm := .disarmed, phase := .idle, campaign := 0, reason := .none }) s
  | .armed => s
  | .cancel => s

/-- The values a refresh has read are applied by the phase the window holds now, and the window is evaluated (02 R32). A window
does not return to IDLE or PENDING during a refresh, so words of those phases are always read in full. -/
def applyRefresh (r : Refresh) (s : State) : State :=
  let w := r.window
  let arm := armOfWord (r.got.getD 0 0)
  let close := match r.kind with
    | .full => r.got.getD 2 0
    | .armAndClose => r.got.getD 1 0
    | .armOnly => (s.window w).closeTime
  let t := match (s.window w).phase with
    | .idle => if r.kind = .full then refreshIdle w r.got s else s
    | .pending => if r.kind = .full then refreshPending w r.got s else s
    | .opened => if r.kind = .armOnly then s else refreshOpen w arm close s
    | .settling => s
    | .queued => s
    | .verifying => s
    | .finished => refreshFinished w arm s
  evalWindow w t

/-- The fields a refresh calls for, by the phase at its start; `none` where it ends at once (02 R32). -/
def refreshKind : Phase → Option RefreshKind
  | .idle => some .full
  | .pending => some .full
  | .opened => some .armAndClose
  | .settling => none
  | .queued => none
  | .verifying => none
  | .finished => some .armOnly

/-- The address of a word of a window entry (02 R30). -/
def windowAddr (s : State) (w offset : Nat) : Word := addrOf s.params.windowList (96 * w + offset)

/-! ### The load's window step (02 R45) -/

/-- What the load makes of one window entry: the copy with its new phase, from the arm word, the times against now and the
previous phase word; the first row of 02 R45's table that applies. -/
def loadedWindow (dflt : Nat) (now : Word) (ws : List Word) : Window :=
  let x := copyWindow dflt ws {}
  let pw := ws.getD 20 0
  let prev := phaseOfCode (bits pw 2 0)
  if x.arm ≠ .armed then { x with phase := .idle }
  else if x.closeTime ≤ x.openTime then { x with phase := .finished, reason := .invalid }
  else if now < x.openTime then { x with phase := .pending }
  else if now < x.closeTime then { x with phase := .opened }
  else if prev = .finished then
    { x with phase := .finished, reason := reasonOfCode (bits pw 6 4), campaign := bits pw 15 8 }
  else if prev = .queued ∨ prev = .verifying then { x with phase := .queued }
  else { x with phase := .settling, expiry := timePlus now x.settle }

/-- The phase word is written where phase, campaign id or finish reason differ from what the phase word held, and always for a
window that becomes OPEN or SETTLING (02 R45). The phase is compared as the code the word shows, so that a code none of the seven, taken
as IDLE, differs from IDLE and is rewritten (DESIGN CHOICE, assumption 12). -/
def loadedWordDue (x : Window) (pw : Word) : Bool :=
  decide (x.phase = .opened) || decide (x.phase = .settling) || decide (x.phase.code ≠ bits pw 2 0) ||
  decide (x.reason.code ≠ bits pw 6 4) || decide (x.campaign ≠ bits pw 15 8)

/-- One window entry as the load's window step takes it (02 R45). -/
def loadWindow (w : Fin 64) (ws : List Word) (s : State) : State :=
  let x := loadedWindow s.params.defaultSettle s.clock.netTime ws
  let t := modWindow w (fun _ => x) s
  let t := if loadedWordDue x (ws.getD 20 0) then markPhase w t else t
  match x.phase with
  | .opened => raiseFence x.spans t
  | .settling => raiseFence x.spans t
  | .queued => { t with sched := { t.sched with slotWait := t.sched.slotWait ++ [w] } }
  | .idle => t
  | .pending => t
  | .verifying => t
  | .finished => t

end Sys2Proof.Machine
end

