-- ==== Sys2Proof/Machine/Campaigns.lean ====
section
/-! DEFINITION. The Campaign Controller: creation and grants, the outcomes of a selection step, joins and claims, abort and the
SUMMARY (chapter 3). -/

namespace Sys2Proof.Machine

/-! ### Creation and grants (03 R47 R49 R50) -/

/-- The value after an id: 1 after 255 (03 R47). -/
def idAfter (n : Nat) : Nat := if 255 ≤ n then 1 else n + 1

def idInUse (s : State) (n : Nat) : Bool :=
  (List.finRange 8).any (fun i => decide ((s.campaign i).state ≠ .free) && decide ((s.campaign i).id = n))

/-- The first id from `n` on that no slot in use holds; at most seven others can be in use, so eight tries do (03 R47). -/
def chooseId (s : State) : Nat → Nat → Nat
  | 0, n => n
  | k + 1, n => if idInUse s n then chooseId s k (idAfter n) else n

/-- The lowest-numbered FREE campaign slot. -/
def freeSlot (s : State) : Option (Fin 8) :=
  pick (fun i => decide ((s.campaign i).state = .free)) (List.finRange 8)

/-- A creation fills a FREE slot (03 R49). An empty span list is created directly in DRAINING with the cursor at the circuit
count; any other campaign begins its first selection step. The id taken is the second component. -/
def createCampaign (i : Fin 8) (origin : Origin) (cls : Class) (set : SpanSet) (s : State) : State × Nat :=
  let id := chooseId s 8 s.ctrl.nextId
  let t := { s with ctrl := { s.ctrl with nextId := idAfter id } }
  let fresh : Campaign :=
    { id := id, state := .selecting, origin := origin, cls := cls, spanSet := set, startTime := s.clock.netTime }
  if set = .list [] then
    (slotWordWrite i (modCampaign i (fun _ => { fresh with state := .draining, cursor := s.params.circuitCount }) t), id)
  else (beginStep i (slotWordWrite i (modCampaign i (fun _ => fresh) t)), id)

/-- A slot is granted to the window at the head of the Slot Waiting List: it leaves the list and becomes VERIFYING with the new
campaign's id (02 R38, 03 R50). -/
def grant (i : Fin 8) (w : Fin 64) (s : State) : State :=
  let x := s.window w
  let t := { s with sched := { s.sched with slotWait := s.sched.slotWait.tail } }
  let (u, id) := createCampaign i (.window w) x.cls (.list x.spans) t
  changeWindow w (fun x => { x with phase := .verifying, campaign := id }) u

/-- Grants from the head of the list, one slot each, until the list is empty or no slot is FREE (03 R50). -/
def grantLoop : Nat → State → State
  | 0, s => s
  | n + 1, s =>
    match s.sched.slotWait, freeSlot s with
    | w :: _, some i => grantLoop n (grant i w s)
    | _, _ => s

/-- The grants of an event, made while the run state is RUNNING (02 R38, 03 R50); eight slots bound them. -/
def serveGrants (s : State) : State := if s.run = .running then grantLoop 8 s else s

/-! ### Selection outcomes, joins and claims (03 R54 to R59) -/

/-- The span test (03 R55): a list matches when it shares a span with the circuit; ALL and SINGLE always match. -/
def SpanSet.meets (set : SpanSet) (spans : List Nat) : Bool :=
  match set with
  | .list l => spans.any (fun x => l.contains x)
  | .all => true
  | .single _ => true

/-- A campaign slot joins a join set, which is kept in ascending slot order (06 R122) without repeats. -/
def insertJoiner (i : Fin 8) : List (Fin 8) → List (Fin 8)
  | [] => [i]
  | j :: rest => if i < j then i :: j :: rest else if i = j then j :: rest else j :: insertJoiner i rest

/-- The campaign joins the entry that holds the circuit (03 R56); an entry that has gone makes the step begin afresh. -/
def joinEntry (i : Fin 8) (sel : Selected) (s : State) : State :=
  match holdingEntry s sel.circuit with
  | some e =>
    let t := modEntry e (fun x => { x with joiners := insertJoiner i x.joiners }) s
    endStep i (modCampaign i (fun c =>
      { c with
        joinedOut := c.joinedOut + 1
        counts := { c.counts with selected := c.counts.selected + 1, joined := c.counts.joined + 1 } }) t)
  | none => restartStep i s

/-- The address of the Reach Map byte of a node (04 R72). -/
def reachAddr (s : State) (node : Nat) : Word := addrOf s.params.reachMap node

/-- A step reaches a claim: the word that holds the head-end node's Reach Map entry is read first (04 R72, 11 R183). -/
def reachClaim (i : Fin 8) (sel : Selected) (s : State) : State :=
  handRead .probe (reachAddr s sel.head &&& 0xFFFFFFFC) (.reach i)
    (modCampaign i (fun c => { c with step := .reach sel }) s)

/-- The span test and the fence test of a watched or claimed outcome (03 R55). -/
def spanTest (i : Fin 8) (claimed : Bool) (sel : Selected) (s : State) : State :=
  if !(s.campaign i).spanSet.meets sel.spans then endStep i s
  else if s.anyFenced sel.spans then endStep i (modCounts i Counts.addSelectedDeferred s)
  else if claimed then joinEntry i sel s
  else reachClaim i sel s

/-- The campaign acts on the outcome of its step's custody action (03 R54); in STOPPING no span test is made and the cursor stays
(03 R69). A campaign that is no longer SELECTING acts on none, nor does one in any other run state: after a bus fault and in HALTED the
Campaign Table is not used (03 R69), also where HALT in the next load abandons an entry that the fault left stalled (assumption 18). -/
def stepOutcome (i : Fin 8) (o : SelectOutcome) (s : State) : State :=
  let c := s.campaign i
  if (s.run = .running ∨ s.run = .stopping) ∧ c.state = .selecting ∧ c.step = .custody then
    match o with
    | .notWatched => endStep i s
    | .unusable => endStep i s
    | .rejected =>
      endStep i (modCounts i (fun n => { n with selected := n.selected + 1, routeInvalid := n.routeInvalid + 1 }) s)
    | .watched sel => if s.run = .running then spanTest i false sel s else modCampaign i (fun c => { c with step := .idle }) s
    | .claimed sel => if s.run = .running then spanTest i true sel s else modCampaign i (fun c => { c with step := .idle }) s
  else s

/-- The Reach Map read of a step has returned: the campaign waits for its claim with that reach (04 R72). -/
def reachRead (i : Fin 8) (data : Word) (s : State) : State :=
  match (s.campaign i).step with
  | .reach sel =>
    modCampaign i (fun c => { c with step := .claim sel (reachOfWord data ((reachAddr s sel.head).toNat % 4)) }) s
  | .idle => s
  | .custody => s
  | .claim _ _ => s

/-- A waiting claimant below its depth, with what it claims (03 R57 R59). -/
def claimantOf (s : State) (i : Fin 8) : Option (Selected × Reach) :=
  let c := s.campaign i
  match c.step with
  | .claim sel r => if c.state = .selecting ∧ c.owned < s.params.depth then some (sel, r) else none
  | .idle => none
  | .custody => none
  | .reach _ => none

/-- URGENT before ROUTINE, then the earlier start time, then the lower slot (03 R59). -/
def claimsBefore (s : State) (i j : Fin 8) : Bool :=
  let a := s.campaign i
  let b := s.campaign j
  if a.cls ≠ b.cls then decide (a.cls = .urgent)
  else if a.startTime ≠ b.startTime then decide (a.startTime < b.startTime)
  else decide (i < j)

/-- The claimant that an entry goes to (03 R59). -/
def bestClaimant (s : State) : Option (Fin 8) :=
  (List.finRange 8).foldl
    (fun best i =>
      if (claimantOf s i).isNone then best
      else match best with
        | none => some i
        | some j => if claimsBefore s i j then some i else some j)
    none

/-- A claim is decided at its own event: the fence, then the map (03 R57). -/
def makeClaim (i : Fin 8) (sel : Selected) (r : Reach) (e : Fin 64) (s : State) : State :=
  if s.anyFenced sel.spans then endStep i (modCounts i Counts.addSelectedDeferred s)
  else match (s.mapEntry sel.circuit).engine with
    | .watched => endStep i (allocate i sel r e s)
    | .claimed => joinEntry i sel s
    | .ignored => endStep i s
    | .rejected => endStep i s
    | .released => endStep i s

def claimLoop : Nat → State → State
  | 0, s => s
  | n + 1, s =>
    match bestClaimant s, freeEntry s with
    | some i, some e =>
      match claimantOf s i with
      | some (sel, r) => claimLoop n (makeClaim i sel r e s)
      | none => s
    | _, _ => s

/-- The claims of an event (03 R59): each waiting claimant leaves the wait at most once, so eight rounds do. No claim is made
outside RUNNING (03 R69). -/
def serveClaims (s : State) : State := if s.run = .running then claimLoop 8 s else s

/-! ### Abort (03 R62 to R64) -/

/-- One entry the aborted campaign owns (03 R63). -/
def abortOwned (i : Fin 8) (s : State) (e : Fin 64) : State :=
  let x := s.entry e
  if x.state.isOpen && decide (x.owner = i) then
    match x.joiners with
    | [] => closeOwner i (fun c => { c with abandoned := c.abandoned + 1 }) (releaseEntry e s)
    | j :: rest =>
      modCampaign j (fun c => { c with owned := c.owned + 1, joinedOut := c.joinedOut - 1 })
        (closeOwner i (fun c => { c with abandoned := c.abandoned + 1 })
          (modEntry e (fun x => { x with owner := j, joiners := rest }) s))
  else s

/-- The aborted campaign leaves one entry's join set (03 R64). -/
def abortJoined (i : Fin 8) (s : State) (e : Fin 64) : State :=
  let x := s.entry e
  if decide (x.state ≠ .free) && x.joiners.contains i then
    closeJoiner (fun c => { c with abandoned := c.abandoned + 1 })
      (modEntry e (fun x => { x with joiners := x.joiners.erase i }) s) i
  else s

/-- A selection request of an aborted campaign: its action still runs, its outcome is not acted on (03 R62). -/
def killReq (i : Fin 8) : CustodyReq → CustodyReq
  | .select j n c live => .select j n c (live && decide (j ≠ i))
  | .sweep c => .sweep c
  | .load c => .load c
  | .compare e c => .compare e c

/-- The step in flight of an aborted campaign is abandoned (03 R62). -/
def abandonStep (i : Fin 8) (s : State) : State :=
  let t := modCampaign i (fun c => { c with step := .idle }) s
  orphan (fun g => decide (g = .reach i))
    { t with custody := { t.custody with
        queue := t.custody.queue.map (fun x => (x.1, killReq i x.2))
        action := t.custody.action.map (fun a => { a with req := killReq i a.req }) } }

/-- A campaign becomes ABORTING (03 R62). -/
def becomeAborting (i : Fin 8) (s : State) : State :=
  let t := modCampaign i (fun c => { c with state := .aborting }) (abandonStep i s)
  let t := (List.finRange 64).foldl (abortOwned i) t
  let t := (List.finRange 64).foldl (abortJoined i) t
  slotWordWrite i t

/-- The slot in use that holds an id (03 R62). -/
def slotOfId (s : State) (id : Nat) : Option (Fin 8) :=
  pick (fun i => decide ((s.campaign i).state ≠ .free) && decide ((s.campaign i).id = id)) (List.finRange 8)

/-- The answer to an ABORT naming an id (03 R62): true for ABORTED, false for NO_SUCH_CAMPAIGN. -/
def abortCampaign (id : Nat) (s : State) : State × Bool :=
  match slotOfId s id with
  | none => (s, false)
  | some i =>
    if s.ctrl.offer = some i then (s, false)
    else match (s.campaign i).state with
      | .selecting => (becomeAborting i s, true)
      | .draining => (becomeAborting i s, true)
      | .aborting => (s, true)
      | .free => (s, false)

/-! ### Summary (03 R65 to R67) -/

/-- A DRAINING or ABORTING campaign with nothing outstanding is complete (03 R65). -/
def Campaign.complete (c : Campaign) : Bool :=
  (decide (c.state = .draining) || decide (c.state = .aborting)) && decide (c.owned = 0) && decide (c.joinedOut = 0)

/-- The lowest complete slot hands its SUMMARY over, one at a time, while the run state is RUNNING; the entry is formed here
(03 R65 R66). -/
def serveSummaries (s : State) : State :=
  if s.run = .running ∧ s.ctrl.offer = none then
    match pick (fun i => (s.campaign i).complete) (List.finRange 8) with
    | some i =>
      modJournal (fun j => { j with campOffer := some (summaryEntry (s.campaign i) s.clock.netTime) }) (setOffer (some i) s)
    | none => s
  else s

/-- The window of a campaign that has ended becomes FINISHED (02 R39, 03 R67). -/
def finishWindow (o : Origin) (aborted : Bool) (s : State) : State :=
  match o with
  | .window w => changeWindow w (fun x => { x with phase := .finished, reason := if aborted then .aborted else .verified }) s
  | .request _ => s
  | .none => s

/-- The SUMMARY of a slot has been written (03 R67): the slot becomes FREE and its word is written, its window is finished,
CAMPAIGN_DONE is set. The grant follows at the same event (serveGrants). -/
def summaryWritten (i : Fin 8) (s : State) : State :=
  let c := s.campaign i
  setEvent .campaignDone
    (finishWindow c.origin (decide (c.state = .aborting))
      (slotWordWrite i (modCampaign i (fun _ => {}) (setOffer none s))))

end Sys2Proof.Machine
end

