-- ==== Sys2Proof/Machine/Alignment.lean ====
section
/-! DEFINITION. The alignment walk, the verdict, the loss arithmetic and the baseline rules, as functions of a route, an echo and
the held parameters (chapters 6 and 7). Positions are counted from 1. -/

namespace Sys2Proof.Machine

/-! ### Alignment (06 R113 to R116) -/

/-- The state of the walk: the route position i, the foreign set, the match list and the findings so far (06 R113). -/
structure Walk where
  i : Nat := 1
  foreign : List Nat := []
  pairs : List (Nat × Nat) := []
  findings : List Finding := []
deriving DecidableEq, Repr

/-- The position k of the stamping hop e_k with a node; the nodes of stamping hops are distinct (01 R8). -/
def hopPosition (node : Nat) : List Hop → Nat → Option Nat
  | [], _ => none
  | h :: rest, k => if h.node = node then some k else hopPosition node rest (k + 1)

/-- The node of e_k. -/
def nodeAt (exp : List Hop) (k : Nat) : Nat :=
  match exp[k - 1]? with
  | some h => h.node
  | none => 0

/-- The observed ports of a stamp: ingress in the low byte, egress in the high byte (06 R116, 11 R184). -/
def portsDetail (o : Stamp) : Int := (o.ingress + 256 * o.egress : Nat)

def missingFinding (exp : List Hop) (k : Nat) : Finding := ⟨.missing, k, 0, nodeAt exp k, 0⟩

/-- MISSING findings for e_a to e_b, in order (06 R113 R115); none when b < a. -/
def missingFindings (exp : List Hop) (a b : Nat) : List Finding :=
  (List.range (b + 1 - a)).map (fun d => missingFinding exp (a + d))

/-- The port and channel checks of a match of e_i with o_j (06 R114). -/
def matchFindings (h : Hop) (i j : Nat) (o : Stamp) : List Finding :=
  (if o.ingress ≠ h.ingress ∨ o.egress ≠ h.egress then [⟨.port, i, j, h.node, portsDetail o⟩] else []) ++
  (if o.channel ≠ h.attr.channel ∧ o.channel ≠ 127 ∧ h.attr.channel ≠ 127 then
    [⟨.channel, i, j, h.node, (o.channel : Int)⟩] else [])

/-- One stamp o_j: loop, match, skip ahead followed by the match, or foreign (06 R113). -/
def walkStamp (exp : List Hop) (w : Walk) (j : Nat) (o : Stamp) : Walk :=
  match hopPosition o.node exp 1 with
  | some k =>
    if k < w.i then { w with findings := w.findings ++ [⟨.loop, k, j, o.node, portsDetail o⟩] }
    else
      match exp[k - 1]? with
      | some h =>
        { w with
          i := k + 1
          pairs := w.pairs ++ [(k, j)]
          findings := w.findings ++ missingFindings exp w.i (k - 1) ++ matchFindings h k j o }
      | none => w
  | none =>
    if w.foreign.contains o.node then { w with findings := w.findings ++ [⟨.loop, 0, j, o.node, portsDetail o⟩] }
    else { w with
      foreign := w.foreign ++ [o.node]
      findings := w.findings ++ [⟨.foreign, 0, j, o.node, portsDetail o⟩] }

/-- The walk over the stamps from position j on. -/
def walkStamps (exp : List Hop) (w : Walk) (j : Nat) : List Stamp → Walk
  | [] => w
  | o :: rest => walkStamps exp (walkStamp exp w j o) (j + 1) rest

/-- The findings made at the end of the walk (06 R115). -/
def endFindings (exp : List Hop) (i : Nat) (e : Echo) : List Finding :=
  if exp.length < i then []
  else if e.brk then [⟨.brk, i, 0, e.breakNode, (e.breakReason : Int)⟩]
  else if e.overflow then []
  else missingFindings exp i exp.length

/-- The alignment of an echo with an expected sequence (06 R113 to R115). -/
def align (exp : List Hop) (e : Echo) : Walk :=
  let w := walkStamps exp {} 1 e.stamps
  { w with findings := w.findings ++ endFindings exp w.i e }

/-! ### The verdict (06 R118) -/

def FindingKind.misroutes : FindingKind → Bool
  | .missing => true | .foreign => true | .port => true | .channel => true | .loop => true
  | .brk => false | .lossHigh => false | .lossLow => false | .drift => false | .unmeasured => false

def FindingKind.degrades : FindingKind → Bool
  | .lossHigh => true | .lossLow => true | .drift => true
  | .missing => false | .foreign => false | .port => false | .channel => false | .loop => false | .brk => false
  | .unmeasured => false

/-- The verdict of an aligned echo from its full findings list; `truncated` is OVERFLOW set with e_n unmatched (06 R118). -/
def verdictOf (findings : List Finding) (truncated : Bool) : Verdict :=
  if findings.any (fun f => f.kind.misroutes) then .misrouted
  else if findings.any (fun f => decide (f.kind = .brk)) then .broken
  else if truncated then .incomplete
  else if findings.any (fun f => f.kind.degrades) then .degraded
  else .continuous

/-! ### Loss arithmetic (07 R130 to R139) -/

/-- The value that stands for an unknown power (05 R103, 07 R130). -/
def unknownPower : Int := -32768

/-- The expected loss of a segment (07 R134). -/
def Segment.expectedLoss (g : Segment) : Int := ((g.spanLosses.sum + g.passiveLosses.sum : Nat) : Int)

/-- The running results over the measured segments: findings, the deviation held, the path loss, how many were measured. -/
structure LossAcc where
  findings : List Finding := []
  worst : Int := 0
  loss : Int := 0
  measured : Nat := 0
deriving DecidableEq, Repr

/-- A deviation against a tolerance class (07 R135 R136). -/
def deviationFindings (tol : Tolerance) (h : Hop) (a x : Nat) (d : Int) : List Finding :=
  if (tol.upper : Int) < d then [⟨.lossHigh, a + 1, x + 1, h.node, saturate d⟩]
  else if d < -(tol.lower : Int) then [⟨.lossLow, a + 1, x + 1, h.node, saturate d⟩]
  else []

/-- Segment a with ends matched to o_x and o_{x+1}: the three tests in order, then measured loss, deviation and judgement at the
far hop's loss check and class (07 R132 to R138). -/
def lossSegment (tols : Vector Tolerance 8) (h : Hop) (g : Segment) (near far : Stamp) (a x : Nat) (acc : LossAcc) : LossAcc :=
  if !h.attr.lossCheck then acc
  else if near.tx = unknownPower ∨ far.rx = unknownPower then
    let code : Int := (if near.tx = unknownPower then 1 else 0) + (if far.rx = unknownPower then 2 else 0)
    { acc with findings := acc.findings ++ [⟨.unmeasured, a + 1, x + 1, h.node, code⟩] }
  else
    let l := near.tx - far.rx
    let d := l - g.expectedLoss
    { findings := acc.findings ++ deviationFindings (tols.get (Fin.ofNat 8 h.attr.tolClass)) h a x d
      worst := if acc.worst.natAbs < d.natAbs then d else acc.worst
      loss := saturate (acc.loss + l)
      measured := acc.measured + 1 }

/-- The segments whose ends stand as consecutive pairs (a, x), (a + 1, x + 1) of the match list, in order (07 R131). -/
def lossPairs (tols : Vector Tolerance 8) (exp : List Hop) (segs : List Segment) (stamps : List Stamp) :
    List (Nat × Nat) → LossAcc → LossAcc
  | [], acc => acc
  | [_], acc => acc
  | (a, x) :: (b, y) :: rest, acc =>
    let acc' :=
      if b = a + 1 ∧ y = x + 1 then
        match exp[a]?, segs[a - 1]?, stamps[x - 1]?, stamps[x]? with
        | some h, some g, some near, some far => lossSegment tols h g near far a x acc
        | _, _, _, _ => acc
      else acc
    lossPairs tols exp segs stamps ((b, y) :: rest) acc'

/-! ### Baselines (07 R140 to R142) -/

/-- A smoothing step: an eighth of the drift, truncated towards zero, saturated (07 R142). -/
def smooth (b p : Int) : Int := saturate (b + (p - b).tdiv 8)

/-- What the baseline rules make of a complete path loss (07 R140 to R142): the baseline after, and the drift if a DRIFT finding
is made. -/
def baselineRule (limit : Nat) (before : Option Int) (p : Int) : Option Int × Option Int :=
  match before with
  | none => (some p, none)
  | some b => if (limit : Int) < ((p - b).natAbs : Int) then (some b, some (p - b)) else (some (smooth b p), none)

/-- The whole comparison of an echo with a valid route (06 R113 to R119, 07 R143). The engine state is filled in by the
Comparator (06 R120). -/
def compareEcho (p : Params) (r : Route) (e : Echo) (before : Option Int) : CmpResult :=
  let exp := r.expected
  let w := align exp e
  let truncated := e.overflow && decide (w.i ≤ exp.length)
  let acc := lossPairs p.tolerance exp r.segments e.stamps w.pairs {}
  let findings := w.findings ++ acc.findings
  let verdict := verdictOf findings truncated
  let complete := decide (acc.measured = exp.length - 1) && decide (verdict = .continuous)
  let (after, drift) := if complete then baselineRule p.driftLimit before acc.loss else (before, none)
  let driftFindings : List Finding :=
    match drift with
    | some d => [⟨.drift, exp.length, e.stamps.length, nodeAt exp exp.length, saturate d⟩]
    | none => []
  { verdict := verdictOf (findings ++ driftFindings) truncated
    findings := findings ++ driftFindings
    worst := saturate acc.worst
    loss := acc.loss
    complete := complete
    baselineAfter := after
    engine := .watched }

end Sys2Proof.Machine
end

