-- ==== Sys2Proof/Machine/Comparator.lean ====
section
/-! DEFINITION. The Comparator: taking items, writing a verdict, handing it over and finishing it (chapter 6). -/

namespace Sys2Proof.Machine

/-! ### Taking an item (06 R108 R109) -/

/-- An echo matches the entry its tag names (06 R109). -/
def echoMatches (e : Echo) (x : Entry) : Bool :=
  decide (x.generation = e.tag / 64) && decide (x.trail = e.trail) &&
  (decide (x.state = .waiting) || decide (x.state = .backoff) || (decide (x.state = .queued) && decide (1 ≤ x.attempts)))

/-- The slot a tag names (06 R109). -/
def tagSlot (tag : Nat) : Fin 64 := Fin.ofNat 64 tag

/-- An entry becomes COMPARING: it leaves its queue if it stands in one, its timer is stopped (04 R81 R82). -/
def toComparing (i : Fin 64) (s : State) : State :=
  modEntry i (fun e => { e with state := .comparing, timer := none, outcome := none }) (dequeueIfQueued i s)

/-- The Comparator enters CUSTODY with an item in hand and asks for its custody action (06 R109 R111). -/
def holdItem (item : Item) (s : State) : State :=
  askCustody (.compare item.entry (s.entry item.entry).circuit)
    (modCmp (fun c => { c with phase := .custody, item := some item }) (toComparing item.entry s))

/-- A take from the FIFO (06 R109): a matching echo is held, a stale one is counted on its receiving link and discarded. -/
def takeEcho (e : Echo) (rest : List Echo) (s : State) : State :=
  let t := modCmp (fun c => { c with lastOutcome := false }) { s with fifo := rest }
  if echoMatches e (s.entry (tagSlot e.tag)) then holdItem ⟨tagSlot e.tag, .echo e⟩ t
  else modCounters e.link (fun c => { c with stale := bump c.stale }) t

/-- A take from the Outcome List (04 R82, 06 R108). -/
def takeOutcome (i : Fin 64) (rest : List (Fin 64)) (s : State) : State :=
  let c := match (s.entry i).outcome with
    | some c => c
    | none => .noEcho
  holdItem ⟨i, .outcome c⟩ (modCmp (fun c => { c with lastOutcome := true }) (setOutcomes rest s))

/-- The take of an idle Comparator: the source that holds items, the one not served last where both do (06 R108). -/
def takeOne (s : State) : State :=
  match s.fifo, s.probes.outcomes with
  | [], [] => s
  | e :: rest, [] => takeEcho e rest s
  | [], i :: rest => takeOutcome i rest s
  | e :: es, i :: is => if s.cmp.lastOutcome then takeEcho e es s else takeOutcome i is s

/-- The takes of an event: a stale echo leaves the Comparator IDLE and it takes again (06 R108 R109). Echoes are found stale at takes
only, and so in RUNNING only (DEDUCED, assumption 24: 05 R107 lets the count rise in STOPPING for the item in hand, for which 06 R108 R109
name no event). -/
def takeLoop : Nat → State → State
  | 0, s => s
  | n + 1, s => if s.run = .running ∧ s.cmp.phase = .idle then takeLoop n (takeOne s) else s

/-- Every take but the last one empties a place of the FIFO, so its length and one more rounds do. -/
def serveComparator (s : State) : State := takeLoop (s.fifo.length + 1) s

/-! ### Writing (06 R120) -/

/-- The new engine state of a verdict under the pending release in force (01 R19, 06 R120). -/
def engineAfter (v : Verdict) (r : Release) : EngineState :=
  afterRelease r (if v = .edited ∨ v = .routeInvalid then .rejected else .watched)

def Conclusion.verdict : Conclusion → Verdict
  | .noEcho => .noEcho
  | .notTested => .notTested

/-- A verdict without route work (06 R119). -/
def plainResult (v : Verdict) (baseline : Option Int) : CmpResult :=
  { verdict := v, findings := [], worst := 0, loss := 0, complete := false, baselineAfter := baseline, engine := .watched }

/-- The owner campaign's id of an entry (06 R120). -/
def State.ownerId (s : State) (i : Fin 64) : Nat := (s.campaign (s.entry i).owner).id

/-- The write at the head of the Comparator's list is handed over, its value formed at this event (06 R120). -/
def handCmpWrite (s : State) : State :=
  match s.cmp.item, s.cmp.result, s.cmp.writes with
  | some item, some r, k :: _ =>
    let c := (s.entry item.entry).circuit
    match k with
    | .baseline => handWrite .custody (recordAddr s c 0x14) (baselineWord r.baselineAfter) .cmpWrite s
    | .captured => handWrite .custody (recordAddr s c 0x10) (field s.cmp.revision 16 0) .cmpWrite s
    | .loss => handWrite .custody (recordAddr s c 0x18) (lossWord r.loss r.complete) .cmpWrite s
    | .time => handWrite .custody (recordAddr s c 0x1C) s.clock.netTime .cmpWrite s
    | .engine => handWrite .custody (recordAddr s c 0x0C) (engineWord r.engine r.verdict.code (s.ownerId item.entry)) .cmpEngine s
  | _, _, _ => s

/-- The writes a result calls for, in the order of 01 R3: the baseline if it changed, the captured revision if the new state is
REJECTED, then path loss, time and engine word (06 R120). -/
def resultWrites (before : Option Int) (r : CmpResult) : List CmpWrite :=
  (if r.baselineAfter ≠ before then [.baseline] else []) ++ (if r.engine = .rejected then [.captured] else []) ++
  [.loss, .time, .engine]

/-- The Comparator enters WRITING with a result (06 R120): the new engine state follows from the verdict and the pending release
the custody action left in force. The comparison holds the Custody Unit (06 R111). -/
def beginWriting (r : CmpResult) (s : State) : State :=
  match s.cmp.item with
  | some item =>
    let rel := (s.mapEntry (s.entry item.entry).circuit).release
    let r' := { r with engine := engineAfter r.verdict rel }
    let t := match s.custody.action with
      | some a => setAction (some { a with phase := .comparing }) s
      | none => s
    handCmpWrite
      (modCmp (fun c => { c with phase := .writing, result := some r', writes := resultWrites c.baseline r' }) t)
  | none => s

/-- One of the writes before the engine word has reached memory: the next one is handed (06 R120). -/
def cmpWriteDone (s : State) : State := handCmpWrite (modCmp (fun c => { c with writes := c.writes.tail }) s)

/-- The alignment and loss arithmetic end (07 R143): the Comparator enters WRITING. -/
def finishAlignment (s : State) : State :=
  match s.cmp.phase, s.cmp.item, s.cmp.route with
  | .aligning, some item, some r =>
    match item.evidence with
    | .echo e => beginWriting (compareEcho s.params r e s.cmp.baseline) s
    | .outcome _ => s
  | _, _, _ => s

/-- The ids of the owner and of the join set in ascending slot order (06 R122). -/
def State.interestIds (s : State) (i : Fin 64) : List Nat :=
  s.ownerId i :: (s.entry i).joiners.map (fun j => (s.campaign j).id)

/-- The VERDICT entry of the item in hand (06 R121); its time is NET_TIME at the event that forms it (assumption 7). -/
def cmpVerdictEntry (s : State) (item : Item) (r : CmpResult) : JournalEntry :=
  let x := s.entry item.entry
  verdictEntry
    { circuit := x.circuit
      revision := s.cmp.revision
      verdict := r.verdict
      engine := r.engine
      complete := r.complete
      brk := match item.evidence with | .echo e => e.brk | .outcome _ => false
      overflow := match item.evidence with | .echo e => e.overflow | .outcome _ => false
      attempts := x.attempts
      time := s.clock.netTime
      stampCount := match item.evidence with | .echo e => e.stamps.length | .outcome _ => 0
      findings := r.findings
      loss := r.loss
      worst := r.worst
      before := s.cmp.baseline
      after := r.baselineAfter
      campaigns := s.interestIds item.entry }

/-- The engine word has reached memory (06 R120): the map keeps the word's verdict and campaign id (01 R10), the VERDICT entry is
formed and handed to the Journal Writer, and the Comparator enters HANDED. -/
def engineWordDone (s : State) : State :=
  match s.cmp.item, s.cmp.result with
  | some item, some r =>
    let c := (s.entry item.entry).circuit
    let t := setMapEntry c { s.mapEntry c with lastVerdict := r.verdict.code, lastCampaign := s.ownerId item.entry } s
    modJournal (fun j => { j with cmpOffer := some (cmpVerdictEntry t item r) })
      (modCmp (fun c => { c with phase := .handed, writes := [] }) t)
  | _, _ => s

/-! ### Finishing (06 R123 R127) -/

/-- The Comparator is IDLE with nothing in hand; its served-last marker stays. -/
def cmpIdle (s : State) : State := modCmp (fun c => { lastOutcome := c.lastOutcome }) s

/-- The VERDICT entry has been written (06 R123): owner and joiners count it, the entry returns to FREE, the circuit leaves
CLAIMED for the state already in its engine word, the custody action ends and the Comparator is IDLE. -/
def verdictWritten (s : State) : State :=
  match s.cmp.item, s.cmp.result with
  | some item, some r =>
    let x := s.entry item.entry
    let base : EngineState := if r.verdict = .edited ∨ r.verdict = .routeInvalid then .rejected else .watched
    let t := closeInterests x (fun c => c.addVerdict r.verdict) s
    cmpIdle (setAction none (leave x.circuit base (freeOne item.entry t)))
  | _, _ => s

/-- The item in hand is abandoned (06 R127): its entry stays COMPARING, its circuit CLAIMED, and the custody action ends. -/
def verdictAbandoned (s : State) : State := cmpIdle (setAction none s)

end Sys2Proof.Machine
end

