-- ==== Sys2Proof/Machine/Requests.lean ====
section
/-! DEFINITION. The Request Reader: triggers, sweeps, the window sweep's walk and the request scan (chapter 9, 02 R32). -/

namespace Sys2Proof.Machine

/-! ### Triggers and the beginning of a sweep (09 R159 to R161) -/

/-- A sweep begins (09 R161): the start time is taken, POLL_NOW clears, and the custody sweep asks for circuit 0 (01 R20). -/
def beginSweep (s : State) : State :=
  let t := modReader (fun r => { r with sweep := .custody, sweepStart := s.clock.netTime, circuit := 0 }) s
  askCustody (.sweep 0) { t with regs := { t.regs with pollNow := false } }

/-- A trigger: a sweep begins when the reader is IDLE, else the sweep-pending flag is set (09 R160). -/
def trigger (s : State) : State :=
  if s.reader.sweep = .idle then beginSweep s else modReader (fun r => { r with sweepPending := true }) s

/-- The request scan ends and with it the sweep (09 R160 R161): the last sweep time is written and a pending trigger begins
another sweep at the same event. -/
def endSweep (s : State) : State :=
  let t := statusWrite .request 0x108 s.reader.sweepStart (modReader (fun r => { r with stage := .none }) s)
  if t.reader.sweepPending then beginSweep (modReader (fun r => { r with sweepPending := false }) t)
  else modReader (fun r => { r with sweep := .idle }) t

/-! ### The request scan (09 R162 to R165) -/

/-- The address of a word of a request slot (09 R162). -/
def slotAddr (s : State) (k offset : Nat) : Word := addrOf s.params.requestList (48 * k + offset)

/-- The scan reads the control word of the slot at the next request index (09 R163). -/
def readControlWord (s : State) : State :=
  handRead .request (slotAddr s s.reader.nextIndex 0) .reqControl (modReader (fun r => { r with stage := .control }) s)

/-- The request part begins (09 R161 R163). -/
def beginScan (s : State) : State :=
  readControlWord (modReader (fun r => { r with sweep := .requests, processed := 0 }) s)

/-- What a request is answered: result code and campaign id (09 R165). -/
structure Answer where
  code : ResultCode
  campaign : Nat
deriving DecidableEq, Repr

/-- A creation asked for by a request: STARTED with the new id, or NO_SLOT (03 R51). -/
def startCampaign (k : Nat) (cls : Class) (set : SpanSet) (s : State) : State × Answer :=
  match freeSlot s with
  | some i =>
    let (t, id) := createCampaign i (.request k) cls set s
    (t, ⟨.started, id⟩)
  | none => (s, ⟨.noSlot, 0⟩)

/-- VERIFY_CIRCUIT (03 R52, 09 R165): the index, then the map, then the slots. -/
def answerCircuit (k : Nat) (cls : Class) (index : Nat) (s : State) : State × Answer :=
  if s.params.circuitCount ≤ index then (s, ⟨.badArgs, 0⟩)
  else if (s.mapEntry index).engine ≠ .watched ∧ (s.mapEntry index).engine ≠ .claimed then (s, ⟨.notWatched, 0⟩)
  else startCampaign k cls (.single index) s

/-- The distinct ids of a VERIFY_SPANS request in their order (09 R165). -/
def requestSpans (ids : List Nat) : List Nat := distinctSpans [] ids

/-- VERIFY_SPANS (03 R51, 09 R165): the span count and the ids, then a creation over the distinct spans. -/
def answerSpans (k : Nat) (cls : Class) (args : List Word) (s : State) : State × Answer :=
  let n := (args.getD 0 0).toNat
  let ids := (List.range n).map (halfword (args.drop 1))
  if n = 0 ∨ 8 < n then (s, ⟨.badArgs, 0⟩)
  else if ids.any (fun x => decide (4095 ≤ x)) then (s, ⟨.badArgs, 0⟩)
  else startCampaign k cls (.list (requestSpans ids)) s

/-- ABORT (03 R62, 09 R165): an id of 0 or above 255 is answered without a search. -/
def answerAbort (id : Nat) (s : State) : State × Answer :=
  if id = 0 ∨ 255 < id then (s, ⟨.noSuchCampaign, 0⟩)
  else
    let (t, found) := abortCampaign id s
    (t, if found then ⟨.aborted, id⟩ else ⟨.noSuchCampaign, 0⟩)

/-- The action of a request by its kind (09 R165). -/
def answerRequest (control : Word) (args : List Word) (s : State) : State × Answer :=
  let k := s.reader.nextIndex
  match requestKind control with
  | .verifyCircuit => answerCircuit k (requestClass control) (args.getD 0 0).toNat s
  | .verifySpans => answerSpans k (requestClass control) args s
  | .verifyAll => startCampaign k (requestClass control) .all s
  | .abort => answerAbort (args.getD 0 0).toNat s
  | .unknown => (s, ⟨.badArgs, 0⟩)

/-- The slot is acted on: the answer is made, then the result word and after it the control word are handed over (09 R164). Both are
handed at the action's event, in that order (DESIGN CHOICE, assumption 17: R164 gives the order alone). -/
def actOnRequest (control : Word) (args : List Word) (s : State) : State :=
  let (t, a) := answerRequest control args s
  let k := s.reader.nextIndex
  handWrite .request (slotAddr t k 0x00) (handbackWord control) .reqHandback
    (handWrite .request (slotAddr t k 0x2C) (resultWord a.code a.campaign) .plain
      (modReader (fun r => { r with stage := .answered }) t))

/-- The next argument read, or the action once the last one has returned (09 R164). -/
def nextArg (control : Word) (got : List Word) (s : State) : State :=
  match (argOffsets (requestKind control))[got.length]? with
  | some o =>
    handRead .request (slotAddr s s.reader.nextIndex o) .reqArg
      (modReader (fun r => { r with stage := .args control got }) s)
  | none => actOnRequest control got s

/-- A slot's control word has been read (09 R163): HOST ends the scan; ENGINE is processed unless the scan has processed slot
count slots, when one more sweep follows. -/
def controlRead (data : Word) (s : State) : State :=
  if s.reader.stage = .control then
    if !ownerIsEngine data then endSweep s
    else if s.params.slotCount ≤ s.reader.processed then endSweep (modReader (fun r => { r with sweepPending := true }) s)
    else nextArg data [] s
  else s

/-- An argument word has been read (09 R164). -/
def argRead (data : Word) (s : State) : State :=
  match s.reader.stage with
  | .args control got => nextArg control (got ++ [data]) s
  | .none => s
  | .control => s
  | .answered => s

/-- The hand-back has reached memory (09 R163 R164): REQUEST_DONE is set, the next request index advances, and in RUNNING the scan
goes on. -/
def handbackDone (s : State) : State :=
  let t := setEvent .requestDone (modReader (fun r =>
    { r with
      nextIndex := if r.nextIndex + 1 < s.params.slotCount then r.nextIndex + 1 else 0
      processed := r.processed + 1
      stage := .none }) s)
  if t.run = .running ∧ t.reader.sweep = .requests then readControlWord t else t

/-! ### The window sweep (02 R32) -/

/-- The first window from `reader.window` on whose phase calls for a read, with the fields it calls for; the refreshes of windows
in SETTLING, QUEUED and VERIFYING end at once (02 R32). -/
def nextRefresh (s : State) : Option (Fin 64 × RefreshKind) :=
  match pick (fun w => decide (s.reader.window ≤ w.val) && (refreshKind (s.window w).phase).isSome) s.windowIndices with
  | some w => (refreshKind (s.window w).phase).map (fun k => (w, k))
  | none => none

/-- The window sweep goes on: the next refresh begins with its first read, or the window part ends and the request scan begins
(02 R32, 09 R161). -/
def goOnWindows (s : State) : State :=
  match nextRefresh s with
  | some (w, k) =>
    handRead .window (windowAddr s w.val ((refreshOffsets k).getD 0 0)) .refresh
      (modReader (fun r => { r with window := w.val })
        { s with sched := { s.sched with refresh := some { window := w, kind := k } } })
  | none => beginScan { s with sched := { s.sched with refresh := none } }

/-- The window part begins (09 R161). -/
def beginWindows (s : State) : State := goOnWindows (modReader (fun r => { r with sweep := .windows, window := 0 }) s)

/-- A word of a refresh has been read: the next read, or the end of the refresh (02 R32). -/
def refreshRead (data : Word) (s : State) : State :=
  match s.sched.refresh with
  | some r =>
    let r' := { r with got := r.got ++ [data] }
    match (refreshOffsets r.kind)[r'.got.length]? with
    | some o =>
      handRead .window (windowAddr s r.window.val o) .refresh { s with sched := { s.sched with refresh := some r' } }
    | none =>
      goOnWindows (modReader (fun x => { x with window := r.window.val + 1 })
        (applyRefresh r' { s with sched := { s.sched with refresh := none } }))
  | none => s

/-- The custody sweep's action for a circuit has ended: the next circuit, or the window part (01 R20). -/
def sweepNext (s : State) : State :=
  if s.run = .running ∧ s.reader.sweep = .custody then
    let c := s.reader.circuit + 1
    if c < s.params.circuitCount then askCustody (.sweep c) (modReader (fun r => { r with circuit := c }) s)
    else beginWindows s
  else s

/-! ### Polls (09 R158) -/

/-- A poll: the timer restarts, the epoch word's read is handed out, and the owners hand out their Status Area writes (09 R158,
05 R105, 04 R70, 03 R48). -/
def poll (s : State) : State :=
  let t := modReader (fun r => { r with pollTimer := some (s.params.pollPeriod * 10) }) s
  let t := handRead .request (addrOf s.params.controlBlock 0x084) .epoch t
  let t := (List.finRange 4).foldl (fun u k => linkStatusWrite k u) t
  let t := statusWrite .probe 0x10C (BitVec.ofNat 32 s.occupancy) t
  slotWordsWrite t

/-- A poll's epoch read has returned (09 R158): a changed value is kept and is a trigger. -/
def epochRead (data : Word) (s : State) : State :=
  if s.run = .running ∧ data ≠ s.reader.lastEpoch then trigger (modReader (fun r => { r with lastEpoch := data }) s) else s

end Sys2Proof.Machine
end

