-- ==== Sys2Proof/Machine/CustodyUnit.lean ====
section
/-! DEFINITION. The Custody Unit: serving requests, record and route reads, the host-word action, acceptance, rejection and the
end of an action (chapter 1), with the end of the load's custody step (10 R176). -/

namespace Sys2Proof.Machine

/-! ### Beginning an action (01 R11) -/

/-- An action begins: the first word of the circuit record is read. -/
def beginAction (req : CustodyReq) (s : State) : State :=
  handRead .custody (recordAddr s req.circuit (recordOffsets.getD 0 0)) .record
    (setAction (some { req := req, phase := .reading [] }) s)

/-- The requests that arrived at the event of the oldest one (01 R11). -/
def oldestRequests (q : List (Nat × CustodyReq)) : Nat :=
  match q with
  | [] => 0
  | (n, _) :: rest => 1 + (rest.takeWhile (fun x => x.1 == n)).length

/-- The idle Custody Unit serves its next request: the oldest; among requests that arrived together, the free value
`Config.custodyTie` decides (01 R11, assumption 5). In RUNNING and STOPPING. -/
def serveCustody (s : State) : State :=
  if s.custody.action = none ∧ (s.run = .running ∨ s.run = .stopping) then
    let n := oldestRequests s.custody.queue
    let i := if n ≤ 1 then 0 else Config.custodyTie s.freeCount % n
    match s.custody.queue[i]? with
    | some (_, r) =>
      let t := { s with custody := { s.custody with queue := s.custody.queue.eraseIdx i } }
      beginAction r (if n ≤ 1 then t else useFree t)
    | none => s
  else s

/-! ### The end of a load (09 R166, 10 R176) -/

/-- The request step and the entry into RUNNING: the reader takes its values, the run state field is written, LOAD_DONE is set, the
poll timer starts and a held POLL_NOW is a trigger. Grants, takes and launches follow at the same event (settle). -/
def enterRunning (s : State) : State :=
  let t := modReader (fun _ =>
    { lastEpoch := s.loader.epoch, pollTimer := some (s.params.pollPeriod * 10), sweepStart := s.reader.sweepStart }) s
  let t := setEvent .loadDone (runStateWrite .running .plain (setRun .running (modLoader (fun _ => {}) t)))
  if t.regs.pollNow then trigger t else t

/-- The load's action for a circuit has ended: the next circuit, or the end of the custody step, at which the last sweep time is
written (01 R22, 09 R166). -/
def loadNext (s : State) : State :=
  if s.run = .loading ∧ s.loader.step = .custody then
    let c := s.loader.index + 1
    if c < s.params.circuitCount then beginAction (.load c) (modLoader (fun l => { l with index := c }) s)
    else enterRunning (statusWrite .request 0x108 s.clock.netTime s)
  else s

/-- The action in flight ends and its requester is told (01 R11). -/
def endAction (o : SelectOutcome) (s : State) : State :=
  match s.custody.action with
  | some a =>
    let t := setAction none s
    match a.req with
    | .sweep _ => sweepNext t
    | .load _ => loadNext t
    | .select i _ _ live => if live then stepOutcome i o t else t
    | .compare _ _ => t
  | none => s

/-! ### Writes of an action (01 R3) -/

/-- Writes to a circuit record in order; the last one tells the Custody Unit of its end. -/
def recordWrites (c : Nat) : List (Nat × Word) → State → State
  | [], s => s
  | [(o, w)], s => handWrite .custody (recordAddr s c o) w .actionEnd s
  | (o, w) :: rest, s => recordWrites c rest (handWrite .custody (recordAddr s c o) w .plain s)

/-- The action waits for its writes. -/
def setPhase (p : ActionPhase) (s : State) : State :=
  match s.custody.action with
  | some a => setAction (some { a with phase := p }) s
  | none => s

/-- A transition to IGNORED or RELEASED (01 R12): the map, then the engine word, whose verdict and campaign id stay. -/
def becomeState (c : Nat) (e : EngineState) (s : State) : State :=
  let t := setMapEntry c { s.mapEntry c with engine := e } s
  engineWordWrite c .actionEnd (setPhase (.writing (.finish .notWatched)) t)

/-- The engine state code the word showed differs from the state now held (01 R22). The code is compared as the word shows it, so that
one that is none of the five, taken as IGNORED, differs from IGNORED and is rewritten (DESIGN CHOICE, assumption 12). -/
def shownDiffers (words : RecordWords) (e : MapEntry) : Bool := decide (bits words.engine 2 0 ≠ e.engine.code)

/-- Acceptance (01 R13): WATCHED; a changed revision sets the baseline absent and is captured. At a load the engine word is written
only where it showed another state (01 R22). -/
def accept (c : Nat) (words : RecordWords) (isLoad : Bool) (o : SelectOutcome) (s : State) : State :=
  let rev := hostRevision words.host
  let t := setMapEntry c { s.mapEntry c with engine := .watched, release := .none } s
  let e := t.mapEntry c
  let ws : List (Nat × Word) :=
    (if rev ≠ bits words.captured 15 0 then [(0x14, baselineWord none), (0x10, field rev 16 0)] else []) ++
    (if isLoad && !shownDiffers words e then [] else [(0x0C, engineWord e.engine e.lastVerdict e.lastCampaign)])
  if ws.isEmpty then endAction o t
  else recordWrites c ws (setPhase (.writing (.finish o)) t)

/-- Rejection and illegal edit (01 R14 R15): REJECTED with pending release NONE, the host revision captured, the engine word with
the verdict and the requester's campaign id, and then the VERDICT entry. -/
def reject (c : Nat) (words : RecordWords) (v : Verdict) (campaigns : List Nat) (o : SelectOutcome) (s : State) : State :=
  let rev := hostRevision words.host
  let id := campaigns.headD 0
  let t := setMapEntry c { engine := .rejected, release := .none, lastVerdict := v.code, lastCampaign := id } s
  recordWrites c [(0x10, field rev 16 0), (0x0C, engineWord .rejected v.code id)]
    (setPhase (.writing (.journal rev v (baselineOfWord words.baseline) campaigns o)) t)

/-- The VERDICT entry of a rejection or an illegal edit (01 R14 R15); its time is NET_TIME when it is handed over (assumption 7). -/
def custodyEntry (s : State) (c rev : Nat) (v : Verdict) (baseline : Option Int) (campaigns : List Nat) : JournalEntry :=
  verdictEntry
    { circuit := c, revision := rev, verdict := v, engine := .rejected, time := s.clock.netTime
      before := baseline, after := baseline, campaigns := campaigns }

/-- The last write of an action has reached memory: the action ends, or its VERDICT entry is handed over. In HALTED, after a halt
from LOADING, the entry is abandoned (01 R23). -/
def actionWritten (s : State) : State :=
  match s.custody.action with
  | some a =>
    match a.phase with
    | .writing (.finish o) => endAction o s
    | .writing (.journal rev v b ids o) =>
      if s.run = .halted then endAction o s
      else
        modJournal (fun j => { j with custOffer := some (custodyEntry s a.req.circuit rev v b ids) })
          (setPhase (.entry o) s)
    | .reading _ => s
    | .routing _ _ => s
    | .entry _ => s
    | .comparing => s
  | none => s

/-- The action's journal entry has been written or abandoned: the action ends (01 R14 R23). -/
def custodyEntryDone (s : State) : State :=
  match s.custody.action with
  | some a =>
    match a.phase with
    | .entry o => endAction o s
    | .reading _ => s
    | .routing _ _ => s
    | .writing _ => s
    | .comparing => s
  | none => s

/-! ### Route reads (01 R9) -/

/-- A route read begins with record word 0x04. -/
def beginRoute (c : Nat) (words : RecordWords) (s : State) : State :=
  handRead .custody (recordAddr s c 0x04) .route (setPhase (.routing words {}) s)

/-- The campaigns a verdict of an action names: the selecting one, or none (01 R14 R15). -/
def CustodyReq.campaigns : CustodyReq → List Nat
  | .select _ id _ _ => [id]
  | .sweep _ => []
  | .load _ => []
  | .compare _ _ => []

def CustodyReq.isLoad : CustodyReq → Bool
  | .load _ => true
  | .sweep _ => false
  | .select _ _ _ _ => false
  | .compare _ _ => false

/-- What a custody action makes of a CLAIMED circuit's pending release (01 R12). -/
def releaseFor : HostRequest → Release
  | .vacant => .toIgnored
  | .recall => .toReleased
  | .active => .none

/-- The pending release a custody action sets (01 R12). -/
abbrev setRelease (c : Nat) (r : Release) (s : State) : State := setMapEntry c { s.mapEntry c with release := r } s

/-- What a selection takes from a valid route (01 R13 R16, 03 R57). -/
def selectedOf (c : Nat) (words : RecordWords) (w4 : Word) (r : Route) : Selected :=
  { circuit := c
    trail := trailOf w4
    head := nodeAt r.expected 1
    spans := r.spanList
    revision := hostRevision words.host }

/-- A route read with validation has ended (01 R9): acceptance or rejection (R13 R14), the outcome of a re-validation (R16), or the
comparison's next phase (01 R17, 06 R112). A selection's pending release is applied here, where its action ends (01 R11,
assumption 15). -/
def routeResult (a : Action) (words : RecordWords) (w4 : Word) (route : Option Route) (s : State) : State :=
  let c := a.req.circuit
  let e := s.mapEntry c
  match a.req with
  | .compare _ _ =>
    match route with
    | some r => setPhase .comparing (modCmp (fun x => { x with phase := .aligning, route := some r }) s)
    | none => beginWriting (plainResult .routeInvalid s.cmp.baseline) s
  | .select _ _ _ _ =>
    match e.engine, route with
    | .watched, some r => endAction (.watched (selectedOf c words w4 r)) s
    | .claimed, some r =>
      endAction (.claimed (selectedOf c words w4 r)) (setRelease c (releaseFor (hostRequest words.host)) s)
    | .claimed, none => endAction .unusable (setRelease c (releaseFor (hostRequest words.host)) s)
    | .watched, none => reject c words .routeInvalid a.req.campaigns .rejected s
    | _, some r => accept c words false (.watched (selectedOf c words w4 r)) s
    | _, none => reject c words .routeInvalid a.req.campaigns .rejected s
  | .sweep _ =>
    match route with
    | some _ => accept c words false .notWatched s
    | none => reject c words .routeInvalid [] .notWatched s
  | .load _ =>
    match route with
    | some _ => accept c words true .notWatched s
    | none => reject c words .routeInvalid [] .notWatched s

/-- A route read's result reaches its action, unless a claim or a leave has changed the map entry since the action began: then the
action is begun again (01 R11). -/
def routeEnd (a : Action) (words : RecordWords) (w4 : Word) (route : Option Route) (s : State) : State :=
  if a.disturbed then beginAction a.req s else routeResult a words w4 route s

/-- What a word of a route read leads to: another read at an address, or the end of the read. -/
inductive RouteNext where
  | read (next : RouteRead) (addr : Word)
  | done (route : Option Route)
deriving DecidableEq, Repr

/-- The address of the low word of a route word (01 R5). -/
def routeAddr (s : State) (index : Nat) : Word := addrOf s.params.routePool (8 * index)

/-- One more word of a route read (01 R9): the record words 0x04 and 0x08, the checks on the record alone, then each route word as
a low and a high word. -/
def routeAdvance (s : State) (c : Nat) (rr : RouteRead) (data : Word) : RouteNext :=
  match rr.recWords with
  | [] => .read { rr with recWords := [data] } (recordAddr s c 0x08)
  | [w4] =>
    if recordRouteOk s.params.poolSize data then
      .read { rr with recWords := [w4, data] } (routeAddr s (routeOffset data))
    else .done none
  | w4 :: w8 :: _ =>
    let k := routeOffset w8 + rr.words.length
    match rr.low with
    | none => .read { rr with low := some data } (routeAddr s k + 4)
    | some lo =>
      let ws := rr.words ++ [(data ++ lo : RouteWord)]
      match routeStatus (startAttr w4 w8) (routeLength w8) ws with
      | .more _ _ => .read { rr with low := none, words := ws } (routeAddr s (k + 1))
      | .invalid => .done none
      | .valid r => .done (some r)

/-- A word of a route read has been read. -/
def routeRead (data : Word) (s : State) : State :=
  match s.custody.action with
  | some a =>
    match a.phase with
    | .routing words rr =>
      match routeAdvance s a.req.circuit rr data with
      | .read next addr => handRead .custody addr .route (setPhase (.routing words next) s)
      | .done route => routeEnd a words ((rr.recWords ++ [data]).getD 0 0) route s
    | .reading _ => s
    | .writing _ => s
    | .entry _ => s
    | .comparing => s
  | none => s

/-! ### The host-word action (01 R12) -/

/-- What 01 R12's table says. -/
inductive HostAction where
  | stay
  | become (e : EngineState)
  | release
  | validate
  | illegalEdit
deriving DecidableEq, Repr

/-- 01 R12's table; `isLoad` is R22's difference: a circuit taken as WATCHED whose request is ACTIVE is validated. -/
def hostAction (isLoad : Bool) (req : HostRequest) (e : EngineState) (sameRevision : Bool) : HostAction :=
  match req, e with
  | .vacant, .ignored => .stay
  | .vacant, .claimed => .release
  | .vacant, .watched => .become .ignored
  | .vacant, .rejected => .become .ignored
  | .vacant, .released => .become .ignored
  | .recall, .ignored => .stay
  | .recall, .released => .stay
  | .recall, .claimed => .release
  | .recall, .watched => .become .released
  | .recall, .rejected => .become .released
  | .active, .ignored => .validate
  | .active, .released => .validate
  | .active, .rejected => if sameRevision then .stay else .validate
  | .active, .watched => if isLoad then .validate else if sameRevision then .stay else .illegalEdit
  | .active, .claimed => .release

/-- What follows a host-word action that leaves the engine state as it is (01 R16 R20 R22). -/
def afterHostAction (a : Action) (words : RecordWords) (s : State) : State :=
  let c := a.req.circuit
  let e := s.mapEntry c
  match a.req with
  | .sweep _ => endAction .notWatched s
  | .load _ =>
    if shownDiffers words e then engineWordWrite c .actionEnd (setPhase (.writing (.finish .notWatched)) s)
    else endAction .notWatched s
  | .select _ _ _ _ =>
    if e.engine = .watched ∨ e.engine = .claimed then beginRoute c words s else endAction .notWatched s
  | .compare _ _ => s

/-- The comparison's part after its record reads (01 R17, 06 R111 R112): an outcome item, or an echo whose revision differs from the
entry's, goes to WRITING; otherwise the route is read. -/
def compareRead (i : Fin 64) (words : RecordWords) (s : State) : State :=
  let rev := hostRevision words.host
  let b := baselineOfWord words.baseline
  let t := modCmp (fun x => { x with request := hostRequest words.host, revision := rev, baseline := b }) s
  match t.cmp.item with
  | some item =>
    match item.evidence with
    | .outcome o => beginWriting (plainResult o.verdict b) t
    | .echo _ =>
      if rev ≠ (t.entry i).revision then beginWriting (plainResult .edited b) t
      else beginRoute (t.entry i).circuit words t
  | none => t

def CustodyReq.isSelect : CustodyReq → Bool
  | .select _ _ _ _ => true
  | .sweep _ => false
  | .load _ => false
  | .compare _ _ => false

/-- What a sweep's, a load's or a selection's action does next by 01 R12's table. -/
def followHostAction (a : Action) (words : RecordWords) (d : HostAction) (s : State) : State :=
  match d with
  | .stay => afterHostAction a words s
  | .release => afterHostAction a words s
  | .become x => becomeState a.req.circuit x s
  | .validate => beginRoute a.req.circuit words s
  | .illegalEdit => reject a.req.circuit words .edited a.req.campaigns .notWatched s

/-- The record reads of an action have returned: 01 R12's table is applied. A comparison takes only its pending release (the
circuit is CLAIMED, R17); a selection's is applied when its route has been read (R11, assumption 15). -/
def applyRecord (a : Action) (words : RecordWords) (s : State) : State :=
  let c := a.req.circuit
  let d := hostAction a.req.isLoad (hostRequest words.host) (s.mapEntry c).engine
    (decide (hostRevision words.host = bits words.captured 15 0))
  let t := if d = .release ∧ a.req.isSelect = false then setRelease c (releaseFor (hostRequest words.host)) s else s
  match a.req with
  | .compare i _ => compareRead i words t
  | .sweep _ => followHostAction a words d t
  | .load _ => followHostAction a words d t
  | .select _ _ _ _ => followHostAction a words d t

/-- The end of an action's record reads (01 R12 R22): an action whose map entry a claim or a leave has changed is begun again; the
load first sets the map entry from the engine word. -/
def recordDone (a : Action) (words : RecordWords) (s : State) : State :=
  if a.disturbed then beginAction a.req s
  else if a.req.isLoad then applyRecord a words (setMapEntry a.req.circuit (mapEntryOfWord words.engine) s)
  else applyRecord a words s

/-- A word of a circuit record has been read: the next one, or the end of the record reads. -/
def recordRead (data : Word) (s : State) : State :=
  match s.custody.action with
  | some a =>
    match a.phase with
    | .reading got =>
      let got' := got ++ [data]
      match recordOffsets[got'.length]? with
      | some o => handRead .custody (recordAddr s a.req.circuit o) .record (setPhase (.reading got') s)
      | none => recordDone a (recordWords got') s
    | .routing _ _ => s
    | .writing _ => s
    | .entry _ => s
    | .comparing => s
  | none => s

end Sys2Proof.Machine
end

