-- ==== Sys2Proof/Machine/JournalWriter.lean ====
section
/-! DEFINITION. The Journal Writer: the placement test, taking and writing entries, the stall and the read mark (chapter 8). -/

namespace Sys2Proof.Machine

/-! ### Geometry and placement (08 R145 R149) -/

/-- The distance from offset `b` forward to offset `a` in an area of `size` bytes. -/
def ringDistance (size a b : Nat) : Nat := (a + size - b) % size

/-- The unread bytes U (08 R145). -/
def Journal.unread (j : Journal) : Nat := ringDistance j.size j.w j.m

/-- The free bytes F (08 R145). -/
def Journal.free (j : Journal) : Nat := j.size - 8 - j.unread

/-- The three cases of the placement test (08 R149). -/
inductive Placement where
  | straight | wrap | stall
deriving DecidableEq, Repr

/-- The placement test for an entry of `n` bytes; the first case that holds decides (08 R149). -/
def placement (j : Journal) (n : Nat) : Placement :=
  if j.w + n ≤ j.size ∧ n ≤ j.free then .straight
  else if j.size < j.w + n ∧ (j.size - j.w) + n ≤ j.free then .wrap
  else .stall

/-- The write offset after an entry of `n` bytes (08 R149). -/
def offsetAfter (j : Journal) (n : Nat) : Placement → Nat
  | .straight => (j.w + n) % j.size
  | .wrap => n
  | .stall => j.w

/-- The words of an entry handed over in ascending offset; the last write tells of the entry's end (08 R149). -/
def journalWrites (last : Tag) : Nat → List Word → State → State
  | _, [], s => s
  | o, [w], s => handWrite .journal (addrOf s.journal.base o) w last s
  | o, w :: rest, s => journalWrites last (o + 4) rest (handWrite .journal (addrOf s.journal.base o) w .plain s)

/-- An entry placed: WRITING, its bytes handed over after the WRAP header where there is one (08 R149). Its sequence number is the
counter as it stands (08 R147). -/
def writeEntry (p : Placement) (e : JournalEntry) (s : State) : State :=
  let j := s.journal
  let t := modJournal (fun j => { j with phase := .writing, nextW := offsetAfter j e.bytes p }) s
  match p with
  | .straight => journalWrites .journalEnd j.w (e.words j.seq) t
  | .wrap => journalWrites .journalEnd 0 (e.words j.seq) (journalWrites .plain j.w wrapWords t)
  | .stall => s

/-! ### Telling the source (08 R149 R155) -/

/-- The source of an entry acts on its having been written (01 R14, 03 R67, 06 R123). -/
def toldWritten : Source → State → State
  | .comparator, s => verdictWritten s
  | .custody, s => custodyEntryDone s
  | .campaign, s =>
    match s.ctrl.offer with
    | some i => summaryWritten i s
    | none => s

/-- The source of an entry acts on its having been abandoned (01 R23, 03 R69, 06 R127). -/
def toldAbandoned : Source → State → State
  | .comparator, s => verdictAbandoned s
  | .custody, s => custodyEntryDone s
  | .campaign, s => setOffer none s

/-- The entry in hand is given up without a number, and its source is told (08 R155). -/
def abandonHand (s : State) : State :=
  match s.journal.hand with
  | some (src, _) => toldAbandoned src (modJournal (fun j => { j with phase := .idle, hand := none }) s)
  | none => s

/-! ### The placement test on the entry in hand (08 R149 R150 R151 R155) -/

/-- The entry in hand finds no room: abandoned in STOPPING, otherwise the Journal Writer becomes STALLED, and JOURNAL_STALL is set
at the entry into STALLED only. -/
def noRoom (s : State) : State :=
  if s.run = .stopping then abandonHand s
  else if s.journal.phase = .stalled then s
  else setEvent .journalStall (modJournal (fun j => { j with phase := .stalled }) s)

/-- The placement test on the entry in hand. -/
def placeHand (s : State) : State :=
  match s.journal.hand with
  | some (_, e) =>
    match placement s.journal e.bytes with
    | .stall => noRoom s
    | p => writeEntry p e s
  | none => s

/-! ### Taking entries (08 R148) -/

/-- The run states in which entries are taken: RUNNING, STOPPING, and LOADING after the journal step. -/
def journalTakes (s : State) : Bool :=
  decide (s.run = .running) || decide (s.run = .stopping) ||
  (decide (s.run = .loading) && (decide (s.loader.step = .windows) || decide (s.loader.step = .custody)))

def Journal.offer (j : Journal) : Source → Option JournalEntry
  | .comparator => j.cmpOffer
  | .custody => j.custOffer
  | .campaign => j.campOffer

def Journal.clearOffer (j : Journal) : Source → Journal
  | .comparator => { j with cmpOffer := none }
  | .custody => { j with custOffer := none }
  | .campaign => { j with campOffer := none }

/-- The sources in the order they are looked at after the one served last. -/
def sourcesAfter : Source → List Source
  | .comparator => [.custody, .campaign, .comparator]
  | .custody => [.campaign, .comparator, .custody]
  | .campaign => [.comparator, .custody, .campaign]

/-- One take: the first source in turn that offers an entry; it becomes the one served last and its entry is tested. -/
def takeEntry (s : State) : State :=
  match pick (fun x => (s.journal.offer x).isSome) (sourcesAfter s.journal.served) with
  | some src =>
    match s.journal.offer src with
    | some e => placeHand (modJournal (fun j => { j.clearOffer src with hand := some (src, e), served := src }) s)
    | none => s
  | none => s

/-- The takes of an event: an entry abandoned at its test in STOPPING leaves the Journal Writer IDLE, and it takes again. -/
def serveJournalLoop : Nat → State → State
  | 0, s => s
  | n + 1, s => if s.journal.phase = .idle ∧ journalTakes s then serveJournalLoop n (takeEntry s) else s

/-- The Journal Writer serves the sources; three offers bound the takes. -/
def serveJournal (s : State) : State := serveJournalLoop 3 s

/-! ### An entry written (08 R147 R149) -/

/-- The last byte of the entry in hand has been written: w and the sequence counter advance, JOURNAL_NEW is set, the source is
told, the new w is written into the Status Area, and the Journal Writer is IDLE. -/
def entryWritten (s : State) : State :=
  match s.journal.hand with
  | some (src, _) =>
    let t := modJournal (fun j => { j with w := j.nextW, seq := j.seq + 1, phase := .idle, hand := none }) s
    statusWrite .journal 0x104 (BitVec.ofNat 32 s.journal.nextW) (toldWritten src (setEvent .journalNew t))
  | none => s

/-! ### The read mark (08 R151 R152) -/

/-- The mark that a write leaves: the value rounded down to a multiple of 8 where it lies in the unread region, else w
(08 R152). -/
def markAfter (j : Journal) (value : Word) : Nat :=
  let v := value.toNat / 8 * 8
  if v < j.size ∧ ringDistance j.size v j.m ≤ j.unread then v else j.w

/-- A stall is retried in RUNNING, and in LOADING once the journal step has begun the session's journal (08 R151 R154). -/
def stallRetries (s : State) : Bool :=
  decide (s.journal.phase = .stalled) && decide (s.run ≠ .stopping) && journalTakes s

/-- A JOURNAL_MARK write: the mark is set, and a stall retries its placement (08 R151 R152). -/
def markWrite (value : Word) (s : State) : State :=
  let t := modJournal (fun j => { j with m := markAfter j value }) s
  if stallRetries t then placeHand t else t

end Sys2Proof.Machine
end

