-- ==== Sys2Proof/Machine/LoadSteps.lean ====
section
/-! DEFINITION. The load: the Control Block step, clamping, clearing, the journal, link and window steps, and the beginning of the
custody step (10 R170 R174 to R176). -/

namespace Sys2Proof.Machine

/-! ### Control Block step (10 R174) -/

/-- A structural fault: code, address, LOAD_FAULT, and back to HALTED; every other on-chip state stands (10 R174). -/
def loadFault (code : FaultCode) (addr : Word) (s : State) : State :=
  let t := modLoader (fun _ => {}) s
  setEvent .loadFault { t with regs := { t.regs with runState := .halted, faultCode := code, faultAddr := addr } }

/-- The next Control Block word is read. -/
def readControlBlock (k : Nat) (s : State) : State :=
  handRead .loader (addrOf s.regs.blockBase (controlBlockOffsets.getD k 0)) .controlBlock s

/-- A load starts (10 R170 R174): the base is tested for alignment, then the Control Block is read. -/
def startLoad (value : Word) (s : State) : State :=
  let t := { s with regs := { s.regs with blockBase := value, faultCode := .none, runState := .loading } }
  if value.toNat % 64 ≠ 0 then loadFault .baseAlign value t
  else readControlBlock 0 (modLoader (fun _ => { step := .controlBlock }) t)

/-- A BLOCK_BASE write: accepted in HALTED, refused in every other run state (10 R170). -/
def baseWrite (value : Word) (s : State) : State :=
  if s.run = .halted then startLoad value s else setEvent .regRefused s

/-! ### Clearing step (10 R176) -/

/-- The Probe Table cleared, each entry's generation kept (04 R90). -/
def clearProbes (p : Probes) : Probes := { entries := vmap (fun e => { generation := e.generation }) p.entries }

/-- The clearing step. Accesses of operations from before the load complete without an effect on it, but for phase-word writes,
which still set WINDOW_CHANGE (10 R176, 02 R44). -/
def clearingStep (s : State) : State :=
  let t := orphan (fun g => decide (g ≠ .phaseWord)) s
  let t := { t with
    probes := clearProbes t.probes
    ctrl := {}
    cmp := {}
    fifo := []
    links := vmap (fun l => { l with counters := {} }) t.links
    custody := {}
    reader := { t.reader with pollTimer := none } }
  statusWrite .probe 0x10C 0 (slotWordsWrite t)

/-! ### Journal and link steps (08 R154, 05 R106) -/

/-- The journal step. -/
def journalStep (s : State) : State :=
  statusWrite .journal 0x104 0
    (modJournal (fun _ => { base := s.params.journalBase, size := s.params.journalSize }) s)

/-- One Link Unit is started afresh, and its state field and counters are written. -/
def startLink (s : State) (k : Fin 4) : State :=
  let p := s.linkParams k
  let up := p.enabled && (s.link k).signal
  linkStatusWrite k (modLink k (fun l =>
    { l with
      started := true
      txQueue := []
      state := if up then .restoring else .down
      holdOff := if up then some (p.holdOff * 10) else none }) s)

def linkStep (s : State) : State := (List.finRange 4).foldl startLink s

/-! ### Window step and the beginning of the custody step (02 R45, 01 R22) -/

/-- The custody step begins with circuit 0; a load has at least one circuit (10 R174). -/
def beginCustodyStep (s : State) : State := beginAction (.load 0) (modLoader (fun l => { l with step := .custody, index := 0, got := [] }) s)

/-- The window step goes on with the window at the loader's index, or ends. -/
def goOnLoadWindows (s : State) : State :=
  if s.loader.index < s.params.windowCount then
    handRead .window (windowAddr s s.loader.index (loadWindowOffsets.getD 0 0)) .loadWindow (modLoader (fun l => { l with got := [] }) s)
  else beginCustodyStep s

/-- The window step begins: the Window Table, the Span Fence Map and the Slot Waiting List are cleared. -/
def beginWindowStep (s : State) : State :=
  goOnLoadWindows (modLoader (fun l => { l with step := .windows, index := 0 }) { s with sched := {} })

/-- The load after the Control Block step: clamping, clearing, journal, links, windows (10 R176). -/
def loadSteps (ws : List Word) (s : State) : State :=
  let t := modLoader (fun l => { l with epoch := cbWord ws 0x084, got := [] })
    { s with params := { paramsOf ws with controlBlock := s.regs.blockBase } }
  beginWindowStep (linkStep (journalStep (clearingStep (runStateWrite .loading .plain t))))

/-- The Control Block words have all been read: the checks decide (10 R174). -/
def controlBlockDone (ws : List Word) (s : State) : State :=
  match structuralFault ws with
  | some (code, offset) => loadFault code (addrOf s.regs.blockBase offset) s
  | none => loadSteps ws s

/-- A Control Block word of the load in flight has been read. -/
def controlBlockRead (data : Word) (s : State) : State :=
  let got := s.loader.got ++ [data]
  if s.run ≠ .loading then s
  else if got.length < controlBlockOffsets.length then readControlBlock got.length (modLoader (fun l => { l with got := got }) s)
  else controlBlockDone got s

/-- A word of a window entry of the load in flight has been read: the next word, or the window is taken and the step goes on
(02 R45). -/
def loadWindowRead (data : Word) (s : State) : State :=
  let got := s.loader.got ++ [data]
  let i := s.loader.index
  if s.run ≠ .loading then s
  else if got.length < loadWindowOffsets.length then
    handRead .window (windowAddr s i (loadWindowOffsets.getD got.length 0)) .loadWindow
      (modLoader (fun l => { l with got := got }) s)
  else goOnLoadWindows (modLoader (fun l => { l with index := i + 1 }) (loadWindow (Fin.ofNat 64 i) got s))

end Sys2Proof.Machine
end

