-- ==== Sys2Proof/Machine/Halting.lean ====
section
/-! DEFINITION. Halt requests, the bus fault, and the hold of power-on and the reset pin (10 R173 R177 to R180). -/

namespace Sys2Proof.Machine

/-! ### HALT from RUNNING (10 R177) -/

/-- The campaign whose selection request is dropped ends its step with no outcome (03 R69). -/
def dropSelection (s : State) (r : CustodyReq) : State :=
  match r with
  | .select i _ _ live => if live then modCampaign i (fun c => { c with step := .idle }) s else s
  | .sweep _ => s
  | .load _ => s
  | .compare _ _ => s

def CustodyReq.isCompare : CustodyReq → Bool
  | .compare _ _ => true
  | .sweep _ => false
  | .load _ => false
  | .select _ _ _ _ => false

def ActionPhase.isReading : ActionPhase → Bool
  | .reading _ => true
  | .routing _ _ => true
  | .writing _ => false
  | .entry _ => false
  | .comparing => false

/-- A custody action that is still reading is abandoned, except the Comparator's (01 R23, 06 R127). -/
def haltAction (s : State) : State :=
  match s.custody.action with
  | some a =>
    if a.phase.isReading && !a.req.isCompare then
      orphan (fun g => decide (g = .record) || decide (g = .route)) (dropSelection (setAction none s) a.req)
    else s
  | none => s

/-- The requests waiting in the Custody Unit are dropped, except the Comparator's (01 R23, 06 R127). -/
def haltQueue (s : State) : State :=
  let t := (s.custody.queue.map (fun x => x.2)).foldl dropSelection s
  { t with custody := { t.custody with queue := t.custody.queue.filter (fun x => x.2.isCompare) } }

/-- The window sweep's refresh is abandoned unapplied (02 R44). -/
def haltRefresh (s : State) : State :=
  orphan (fun g => decide (g = .refresh)) { s with sched := { s.sched with refresh := none } }

/-- The Request Reader at a halt (09 R167): a slot already acted on keeps its writes. -/
def haltReader (s : State) : State :=
  orphan (fun g => decide (g = .epoch) || decide (g = .reqControl) || decide (g = .reqArg))
    (modReader (fun r =>
      { r with
        pollTimer := none
        sweep := .idle
        sweepPending := false
        stage := if r.stage = .answered then .answered else .none }) s)

/-- A stalled entry is abandoned; an entry being written goes on (08 R155). An offer that waited behind the stalled entry stays offered
and has its own placement test in STOPPING, as R155 says of the offers that remain, where R127, R91, R23 and R69 speak of a stalled journal
as if it abandoned every entry (DEDUCED, assumption 27). -/
def haltJournal (s : State) : State := if s.journal.phase = .stalled then abandonHand s else s

/-- HALT in RUNNING: STOPPING, and each block sets its work aside (10 R177). -/
def haltRunning (s : State) : State :=
  haltJournal (haltReader (haltRefresh (haltQueue (haltAction (runStateWrite .stopping .plain (setRun .stopping s))))))

/-! ### HALT from LOADING (10 R176, 01 R23, 08 R155) -/

/-- The load's custody action at a halt (01 R23): still reading, it is abandoned; still writing, it ends once its engine word is
written; with an entry not taken, it ends now; with an entry taken, it ends with the entry. -/
def haltLoadAction (s : State) : State :=
  match s.custody.action with
  | some a =>
    match a.phase with
    | .reading _ => orphan (fun g => decide (g = .record)) (setAction none s)
    | .routing _ _ => orphan (fun g => decide (g = .route)) (setAction none s)
    | .writing (.finish _) => s
    | .writing (.journal _ _ _ _ o) => setAction (some { a with phase := .writing (.finish o) }) s
    | .entry _ =>
      if s.journal.custOffer.isSome then setAction none (modJournal (fun j => { j with custOffer := none }) s) else s
    | .comparing => s
  | none => s

/-- HALT in LOADING: HALTED at once, the load abandoned (10 R176). -/
def haltLoading (s : State) : State :=
  haltJournal (haltLoadAction
    (orphan (fun g => decide (g = .controlBlock) || decide (g = .loadWindow)) (modLoader (fun _ => {}) (setRun .halted s))))

/-- A halt request, by the run state at its event (10 R173). -/
def haltRequest (s : State) : State :=
  match s.run with
  | .halted => s
  | .loading => haltLoading s
  | .running => haltRunning s
  | .stopping => s
  | .faulted => setRun .halted s

/-! ### Bus faults (10 R178) -/

/-- A link at a bus fault (05 R107): the monitor freezes with its timer stopped, the frame being sent goes on, the rest of the queue
is discarded. -/
def freezeLink (l : Link) : Link := { l with started := false, holdOff := none, txQueue := l.txQueue.take 1 }

/-- The bus fault of the access at `addr`: FAULTED, FAULT_ADDR, fault code BUS, BUS_FAULT; every queue is discarded and every block
stops in the state it stands (10 R178). Whether a faulted write landed is a free value (assumption 5). -/
def busFault (addr : Word) (s : State) : State :=
  let t := dropQueues (cutAccess s)
  setEvent .busFault
    { t with
      regs := { t.regs with runState := .faulted, faultCode := .bus, faultAddr := addr }
      links := vmap freezeLink t.links }

/-- The access on the bus ends in a bus fault. -/
def faultAccess (s : State) : State :=
  match s.master.port with
  | some (_, a) => busFault a.addr s
  | none => s

/-! ### The hold (10 R180) -/

/-- The part held: every register and collection at its power-on value; the access on the bus is cut off and the queued ones are
discarded; shared memory and the lines' signals are outside the part. -/
def hold (s : State) : State :=
  let t := cutAccess s
  { pending := t.pending
    held := true
    memory := t.memory
    links := vmap (fun l => { signal := l.signal }) t.links
    freeCount := t.freeCount
    eventNo := t.eventNo }

end Sys2Proof.Machine
end

