-- ==== Sys2Proof/Machine/Settle.lean ====
section
/-! DEFINITION. What follows "at that event": the launches, and the blocks served in one fixed order after every event that can
give them work (03 R50 R59 R66, 04 R76, 06 R108, 08 R148, 01 R11, 10 R177 R178). -/

namespace Sys2Proof.Machine

/-! ### Launches (04 R76 R77 R78, 02 R43) -/

/-- The entry at the head of the queue a scheduler picks, with the pick. -/
def launchPick (k : Fin 4) (s : State) : Option (PickResult × Fin 64) :=
  match pickQueue s.params (s.launchSched k) with
  | some p =>
    match (s.launchSched k).queueOf p.cls with
    | i :: _ => some (p, i)
    | [] => none
  | none => none

/-- One launch decision of link `k`: an entry that holds a fenced span is withdrawn in place of its launch (02 R43), and the
freed entry may be claimed and an outcome taken at the same event. -/
def launchOne (k : Fin 4) (p : PickResult) (i : Fin 64) (s : State) : State :=
  if s.anyFenced (s.entry i).spans then serveComparator (serveClaims (withdraw i s)) else launch k p i s

/-- The launches of link `k` at an event. -/
def launchLoop (k : Fin 4) : Nat → State → State
  | 0, s => s
  | n + 1, s =>
    if launchReady k s then
      match launchPick k s with
      | some (p, i) => launchLoop k n (launchOne k p i s)
      | none => s
    else s

/-- The links in ascending number. A link launches or withdraws at most its queued entries and those claimed meanwhile: 128 rounds
do. -/
def serveLaunches (s : State) : State := (List.finRange 4).foldl (fun t k => launchLoop k 128 t) s

/-! ### The end of STOPPING (10 R177) -/

/-- Everything R177 asks for before the HALTED write is handed. -/
def stopComplete (s : State) : Bool :=
  decide (s.run = .stopping) && decide (s.cmp.phase = .idle) && decide (s.journal.phase = .idle) &&
  s.journal.cmpOffer.isNone && s.journal.custOffer.isNone && s.journal.campOffer.isNone &&
  s.custody.action.isNone && decide (s.reader.stage ≠ .answered) && !s.masterBusy && !s.loader.stopHanded

/-- The Loader hands the run state field's HALTED write once (10 R177). -/
def serveStop (s : State) : State :=
  if stopComplete s then runStateWrite .halted .haltedWrite (modLoader (fun l => { l with stopHanded := true }) s) else s

/-! ### The order of service -/

/-- The end of an event: grants, claims, the Comparator's takes, launches, summaries, the Journal Writer's takes, custody actions,
phase words, the end of STOPPING, and the bus. -/
def settle (s : State) : State :=
  let t := serveSummaries (serveLaunches (serveComparator (serveClaims (serveGrants s))))
  let t := serveStop (flushPhaseWords (serveCustody (serveJournal t)))
  issue { t with eventNo := t.eventNo + 1 }

end Sys2Proof.Machine
end

