-- ==== Sys2Proof/Machine/Delivery.lean ====
section
/-! DEFINITION. The end of a memory access (10 R178): what its requester does when told, and which accesses end the operations that
commands name. -/

namespace Sys2Proof.Machine

/-- The HALTED write of a stop has reached memory: the part is HALTED (10 R177). -/
def stoppingEnds (s : State) : State :=
  if s.run = .stopping then setRun .halted (modLoader (fun l => { l with stopHanded := false }) s) else s

/-- What the requester of an access does when told of its end, by the access's tag. -/
def deliver (tag : Tag) (data : Word) (s : State) : State :=
  match tag with
  | .plain => s
  | .controlBlock => controlBlockRead data s
  | .haltedWrite => stoppingEnds s
  | .loadWindow => loadWindowRead data s
  | .refresh => refreshRead data s
  | .phaseWord => setEvent .windowChange s
  | .record => recordRead data s
  | .route => routeRead data s
  | .actionEnd => actionWritten s
  | .cmpWrite => cmpWriteDone s
  | .cmpEngine => engineWordDone s
  | .reach i => reachRead i data s
  | .journalEnd => entryWritten s
  | .epoch => epochRead data s
  | .reqControl => controlRead data s
  | .reqArg => argRead data s
  | .reqHandback => handbackDone s

/-- The response of the access on the bus, with the word a read returns; without an access on the bus nothing ends. -/
def busResponse (data : Word) (s : State) : State :=
  match s.master.port with
  | some (_, a) => settle (deliver a.tag data (endAccess a s))
  | none => s

/-- The tag of the access on the bus. -/
def State.portTag (s : State) : Option Tag := s.master.port.map (fun x => x.2.tag)

/-- A response that ends the operation a command names; any other response is not that command's event (assumption 3). -/
def endOf (last : Bool) (data : Word) (s : State) : State := if last then busResponse data s else s

/-! ### The accesses that end an operation -/

/-- The last Control Block word (10 R174). -/
def endsControlBlock (s : State) : Bool :=
  decide (s.portTag = some .controlBlock) && decide (s.loader.got.length + 1 = controlBlockOffsets.length)

/-- The last word of a window entry in the load's window step (02 R45). -/
def endsLoadWindow (s : State) : Bool :=
  decide (s.portTag = some .loadWindow) && decide (s.loader.got.length + 1 = loadWindowOffsets.length)

/-- The last word of an action's record reads; `isLoad` tells the load's actions from the others (01 R12 R22). -/
def endsRecord (isLoad : Bool) (s : State) : Bool :=
  decide (s.portTag = some .record) &&
  match s.custody.action with
  | some a =>
    match a.phase with
    | .reading got => decide (got.length + 1 = recordOffsets.length) && (a.req.isLoad == isLoad)
    | .routing _ _ => false
    | .writing _ => false
    | .entry _ => false
    | .comparing => false
  | none => false

/-- The word that decides a route read (01 R9). -/
def endsRoute (data : Word) (s : State) : Bool :=
  decide (s.portTag = some .route) &&
  match s.custody.action with
  | some a =>
    match a.phase with
    | .routing _ rr =>
      match routeAdvance s a.req.circuit rr data with
      | .done _ => true
      | .read _ _ => false
    | .reading _ => false
    | .writing _ => false
    | .entry _ => false
    | .comparing => false
  | none => false

/-- The last word of a window's refresh (02 R32). -/
def endsRefresh (s : State) : Bool :=
  decide (s.portTag = some .refresh) &&
  match s.sched.refresh with
  | some r => decide (r.got.length + 1 = (refreshOffsets r.kind).length)
  | none => false

/-- A Reach Map read (04 R72). -/
def endsReach (s : State) : Bool := (List.finRange 8).any (fun i => decide (s.portTag = some (.reach i)))

/-- The last argument word of a request of a kind (09 R164). -/
def endsArgs (k : RequestKind) (s : State) : Bool :=
  decide (s.portTag = some .reqArg) &&
  match s.reader.stage with
  | .args control got => decide (requestKind control = k) && decide (got.length + 1 = (argOffsets k).length)
  | .none => false
  | .control => false
  | .answered => false

end Sys2Proof.Machine
end

