-- ==== Sys2Proof/Machine/Timers.lean ====
section
/-! DEFINITION. Time: the timers' expiries, the second event, and the millisecond that passes when no command waits
(assumption 11). -/

namespace Sys2Proof.Machine

/-! ### Link monitors (05 R93 to R100) -/

/-- The hold-off of a link in ms. -/
def holdOffMs (s : State) (k : Fin 4) : Nat := (s.linkParams k).holdOff * 10

/-- In a load the monitors act from the link step on (10 R176): until then the monitors of an earlier session stand still
(assumption 19). -/
def monitorsRest (s : State) : Bool := decide (s.run = .loading) && decide (s.loader.step = .controlBlock)

/-- The monitor acts on signal events: it has been started, the link is enabled, and no load is before its link step (05 R97 R106,
10 R176). -/
def monitorActs (s : State) (k : Fin 4) : Bool := (s.link k).started && (s.linkParams k).enabled && !monitorsRest s

/-- The monitor enters a state with its timer as given, and the state field is written (05 R98). -/
def monitorTo (k : Fin 4) (st : LinkState) (timer : Option Nat) (s : State) : State :=
  linkStateReport k (modLink k (fun l => { l with state := st, holdOff := timer }) s)

/-- The signal-lost event (05 R94 R95 R100): the transmitter's frames are discarded, but not those of a link that a bus fault has
frozen, which heeds no signal event (05 R107); UP becomes FAILING, RESTORING becomes DOWN. -/
def signalLost (k : Fin 4) (s : State) : State :=
  let t := modLink k (fun l => { l with signal := false, txQueue := if l.started then [] else l.txQueue }) s
  if monitorActs s k then
    match (s.link k).state with
    | .up => monitorTo k .failing (some (holdOffMs s k)) t
    | .restoring => monitorTo k .down none t
    | .failing => t
    | .down => t
  else t

/-- The signal-present event (05 R94 R95): FAILING becomes UP, DOWN becomes RESTORING. -/
def signalPresent (k : Fin 4) (s : State) : State :=
  let t := modLink k (fun l => { l with signal := true }) s
  if monitorActs s k then
    match (s.link k).state with
    | .failing => monitorTo k .up none t
    | .down => monitorTo k .restoring (some (holdOffMs s k)) t
    | .up => t
    | .restoring => t
  else t

/-- A reported change (05 R98): the Probe Table acts on it in RUNNING, LINK_CHANGE is set, the state field is written. -/
def reportChange (k : Fin 4) (act : State → State) (s : State) : State :=
  linkStateReport k (setEvent .linkChange (if s.run = .running then act s else s))

/-- The hold-off timer of a link runs out (05 R94 R95). -/
def holdOffExpires (k : Fin 4) (s : State) : State :=
  match (s.link k).state with
  | .failing => reportChange k (linkWentDown k) (modLink k (fun l => { l with state := .down, holdOff := none }) s)
  | .restoring => reportChange k (linkBecameUp k) (modLink k (fun l => { l with state := .up, holdOff := none }) s)
  | .up => s
  | .down => s

/-- The hold-off timer of a link is running. -/
def holdOffRuns (s : State) (k : Fin 4) : Bool :=
  (s.link k).started && !monitorsRest s && (s.link k).holdOff.isSome &&
  (decide ((s.link k).state = .failing) || decide ((s.link k).state = .restoring))

/-! ### Receivers (05 R101 to R104) -/

/-- A frame taken to the checks: rejected, accepted into the FIFO, or dropped where it holds 16 items. -/
def receiveFrame (k : Fin 4) (frame : List Byte) (s : State) : State :=
  if !echoOk frame then modCounters k (fun c => { c with rejected := bump c.rejected }) s
  else if s.fifo.length < 16 then
    modCounters k (fun c => { c with accepted := bump c.accepted }) { s with fifo := s.fifo ++ [echoItem k frame] }
  else modCounters k (fun c => { c with dropped := bump c.dropped }) s

/-! ### Which timers run (04 R78 R79 R91, 09 R158 R167) -/

/-- The timer of a probe entry in a state runs: in RUNNING only. -/
def probeTimerRuns (s : State) (st : EntryState) (i : Fin 64) : Bool :=
  decide (s.run = .running) && decide ((s.entry i).state = st) && (s.entry i).timer.isSome

def gapRuns (s : State) (k : Fin 4) : Bool := decide (s.run = .running) && (s.launchSched k).gap.isSome

def pollTimerRuns (s : State) : Bool := decide (s.run = .running) && s.reader.pollTimer.isSome

/-! ### The millisecond that passes on an empty queue (assumption 11) -/

/-- The command of the first timer that has run out: the bus timeout, the hold-offs, the probe timers, the launch gaps, the poll
timer. -/
def dueCommand (s : State) : Option Instr :=
  if s.master.port.isSome && decide (s.master.timer = some 0) then some .busTimeout
  else match pick (fun k => holdOffRuns s k && decide ((s.link k).holdOff = some 0)) (List.finRange 4) with
    | some k => some (.holdOffExpiry k)
    | none =>
      match pick (fun i => probeTimerRuns s .waiting i && decide ((s.entry i).timer = some 0)) (List.finRange 64) with
      | some i => some (.probeTimeout i)
      | none =>
        match pick (fun i => probeTimerRuns s .backoff i && decide ((s.entry i).timer = some 0)) (List.finRange 64) with
        | some i => some (.backoffExpiry i)
        | none =>
          match pick (fun k => gapRuns s k && decide ((s.launchSched k).gap = some 0)) (List.finRange 4) with
          | some k => some (.launchGapExpiry k)
          | none =>
            if pollTimerRuns s && decide (s.reader.pollTimer = some 0) then some .pollTimerExpiry else none

/-- A running timer loses one millisecond. -/
def countDown (t : Option Nat) : Option Nat := t.map (fun n => n - 1)

/-- Every running timer loses one millisecond: the bus timeout always, the hold-offs while the monitors act, the others in RUNNING. -/
def countTimers (s : State) : State :=
  let t := { s with
    master := { s.master with timer := countDown s.master.timer }
    links := vmap (fun l => if monitorsRest s then l else { l with holdOff := countDown l.holdOff }) s.links }
  if s.run = .running then
    { t with
      probes := { t.probes with
        entries := vmap (fun e => { e with timer := countDown e.timer }) t.probes.entries
        scheds := vmap (fun q => { q with gap := countDown q.gap }) t.probes.scheds }
      reader := { t.reader with pollTimer := countDown t.reader.pollTimer } }
  else t

/-- One millisecond passes: the timers count, and the sub-count advances or a second event comes (02 R24). -/
def tick (s : State) : State :=
  let t := countTimers s
  if t.clock.subCount < 999 then { t with clock := { t.clock with subCount := t.clock.subCount + 1 } }
  else settle (secondTick t)

end Sys2Proof.Machine
end

