-- ==== Sys2Proof/Machine/RegisterCommands.lean ====
section
/-! DEFINITION. The meanings of the pin and register commands (chapter 10). A DATA write takes effect when the part is not held and
the SELECT index selects its register; while the part is held only the pins act (10 R168 R180, assumption 6). -/

namespace Sys2Proof.Machine

/-- The answer of every command: no command stops the part. -/
abbrev Answered := Host.Outcome State Fault Refusal

/-- A command that acts while the part is not held. -/
def whenActive (f : State → State) (s : State) : Answered := .next (if s.held then s else f s)

/-- A DATA write to the register at `index`. -/
def whenSelected (index : Nat) (f : State → State) (s : State) : Answered :=
  .next (if !s.held && decide (s.regs.select.toNat = index) then f s else s)

/-! ### Pins (10 R180) -/

/-- POWER_ON (10 R180): the part is held. -/
def execPowerOn (s : State) : Answered := .next (hold s)

/-- RESET_ASSERT (10 R180): the part is held. -/
def execResetAssert (s : State) : Answered := .next (hold s)

/-- RESET_RELEASE (10 R180): the hold ends; the clock begins to count. -/
def execResetRelease (s : State) : Answered := .next { s with held := false }

/-! ### SELECT, EVENTS, EVENT_MASK (10 R168 R172) -/

/-- SELECT_WRITE (10 R168). -/
def execSelectWrite (value : Word) (s : State) : Answered :=
  whenActive (fun s => { s with regs := { s.regs with select := value.setWidth 4 } }) s

/-- EVENTS_WRITE (10 R172): each bit written as 1 is cleared. -/
def execEventsWrite (value : Word) (s : State) : Answered :=
  whenSelected 2 (fun s => { s with regs := { s.regs with events := s.regs.events &&& ~~~ value.setWidth 10 } }) s

/-- EVENT_MASK_WRITE (10 R168). -/
def execEventMaskWrite (value : Word) (s : State) : Answered :=
  whenSelected 3 (fun s => { s with regs := { s.regs with mask := value.setWidth 10 } }) s

/-- REGISTER_WRITE_IGNORED (10 R168). -/
def execRegisterWriteIgnored (_value : Word) (s : State) : Answered := .next s

/-! ### CONTROL (10 R169) -/

/-- POLL_NOW of a CONTROL write is held (10 R169). -/
def holdPollNow (s : State) : State := { s with regs := { s.regs with pollNow := true } }

/-- The fields of a CONTROL write (10 R169): IRQ_EN takes bit 10, and a POLL_NOW is held. -/
def controlFields (value : Word) (s : State) : State :=
  let t := { s with regs := { s.regs with irqEn := value.getLsbD 10 } }
  if value.getLsbD 9 then holdPollNow t else t

/-- A CONTROL write (10 R169): after its fields, the halt request is taken, or, without one, a POLL_NOW in RUNNING is a sweep
trigger (09 R159). -/
def controlWrite (value : Word) (s : State) : State :=
  let t := controlFields value s
  if value.getLsbD 8 then settle (haltRequest t)
  else if value.getLsbD 9 && decide (s.run = .running) then settle (trigger t)
  else t

/-- HALT (10 R173): a CONTROL write with the HALT bit set. -/
def execHalt (value : Word) (s : State) : Answered := whenSelected 1 (controlWrite value) s

/-- POLL_NOW (09 R159): a CONTROL write with the POLL_NOW bit set. -/
def execPollNow (value : Word) (s : State) : Answered := whenSelected 1 (fun s => controlWrite value s) s

/-- IRQ_EN_WRITE (10 R169): a CONTROL write. -/
def execIrqEnWrite (value : Word) (s : State) : Answered := .next (if s.held ∨ s.regs.select ≠ 1 then s else controlWrite value s)

/-! ### BLOCK_BASE, JOURNAL_MARK, NET_TIME -/

/-- BLOCK_BASE_WRITE (10 R170 R174). -/
def execBlockBaseWrite (value : Word) (s : State) : Answered := whenSelected 4 (fun s => settle (baseWrite value s)) s

/-- JOURNAL_MARK_WRITE (08 R151 R152). -/
def execJournalMarkWrite (value : Word) (s : State) : Answered := whenSelected 6 (fun s => settle (markWrite value s)) s

/-- NET_TIME_WRITE (02 R25): the time is set, the sub-count restarts, and windows are evaluated. -/
def execNetTimeWrite (value : Word) (s : State) : Answered :=
  whenSelected 7 (fun s => settle (evalWindows { s with clock := { netTime := value, subCount := 0 } })) s

end Sys2Proof.Machine
end

