-- ==== Sys2Proof/Machine/MemoryCommands.lean ====
section
/-! DEFINITION. The meanings of the commands that are the end of a bus access (10 R178), named by the operation they end. -/

namespace Sys2Proof.Machine

/-- MEMORY_ACCESS_DONE (10 R178): the response of the access on the bus, whatever it is for. -/
def execMemoryAccessDone (data : Word) (s : State) : Answered := .next (busResponse data s)

/-- BUS_ERROR_RESPONSE (10 R178). -/
def execBusErrorResponse (s : State) : Answered := .next (faultAccess s)

/-- BUS_TIMEOUT (10 R178): the same effects as an error response. -/
def execBusTimeout (s : State) : Answered := .next (if s.master.port.isSome then faultAccess s else s)

/-- CONTROL_BLOCK_READ_DONE (10 R174). -/
def execControlBlockReadDone (data : Word) (s : State) : Answered := .next (endOf (endsControlBlock s) data s)

/-- LOAD_WINDOW_READ_DONE (02 R45). -/
def execLoadWindowReadDone (data : Word) (s : State) : Answered := .next (endOf (endsLoadWindow s) data s)

/-- LOAD_CUSTODY_READ_DONE (01 R22). -/
def execLoadCustodyReadDone (data : Word) (s : State) : Answered := .next (endOf (endsRecord true s) data s)

/-- STOPPING_END (10 R177). -/
def execStoppingEnd (data : Word) (s : State) : Answered := .next (endOf (decide (s.portTag = some .haltedWrite)) data s)

/-- WINDOW_REFRESH_DONE (02 R32). -/
def execWindowRefreshDone (data : Word) (s : State) : Answered := .next (endOf (endsRefresh s) data s)

/-- PHASE_WORD_WRITTEN (02 R37). -/
def execPhaseWordWritten (data : Word) (s : State) : Answered := .next (endOf (decide (s.portTag = some .phaseWord)) data s)

/-- HOST_WORD_READ_DONE (01 R12). -/
def execHostWordReadDone (data : Word) (s : State) : Answered := .next (endOf (endsRecord false s) data s)

/-- ROUTE_READ_DONE (01 R9). -/
def execRouteReadDone (data : Word) (s : State) : Answered := .next (endOf (endsRoute data s) data s)

/-- REACH_MAP_READ_DONE (04 R72). -/
def execReachMapReadDone (data : Word) (s : State) : Answered := .next (endOf (endsReach s) data s)

/-- ENGINE_WORD_WRITTEN (06 R120). -/
def execEngineWordWritten (data : Word) (s : State) : Answered := .next (endOf (decide (s.portTag = some .cmpEngine)) data s)

/-- JOURNAL_ENTRY_WRITTEN (08 R149). -/
def execJournalEntryWritten (data : Word) (s : State) : Answered := .next (endOf (decide (s.portTag = some .journalEnd)) data s)

/-- EPOCH_READ_DONE (09 R158). -/
def execEpochReadDone (data : Word) (s : State) : Answered := .next (endOf (decide (s.portTag = some .epoch)) data s)

/-- REQUEST_CONTROL_READ_DONE (09 R163). -/
def execRequestControlReadDone (data : Word) (s : State) : Answered := .next (endOf (decide (s.portTag = some .reqControl)) data s)

/-- VERIFY_CIRCUIT (03 R52, 09 R165). -/
def execVerifyCircuit (data : Word) (s : State) : Answered := .next (endOf (endsArgs .verifyCircuit s) data s)

/-- VERIFY_SPANS (03 R51, 09 R165). -/
def execVerifySpans (data : Word) (s : State) : Answered := .next (endOf (endsArgs .verifySpans s) data s)

/-- ABORT (03 R62, 09 R165). -/
def execAbort (data : Word) (s : State) : Answered := .next (endOf (endsArgs .abort s) data s)

/-- REQUEST_HANDBACK_DONE (09 R164). -/
def execRequestHandbackDone (data : Word) (s : State) : Answered := .next (endOf (decide (s.portTag = some .reqHandback)) data s)

end Sys2Proof.Machine
end

