-- ==== Sys2Proof/Machine/EventCommands.lean ====
section
/-! DEFINITION. The meanings of the commands that are the passing of time, the events of a line, and the end of the Comparator's
arithmetic. An event that the state does not admit leaves the state as it stands (assumption 6). -/

namespace Sys2Proof.Machine

/-- An event that comes only in a state that admits it. -/
def admitted (p : Bool) (f : State → State) (s : State) : Answered := .next (if p then f s else s)

/-- SECOND_EVENT (02 R24). -/
def execSecondEvent (s : State) : Answered := whenActive (fun s => settle (secondTick s)) s

/-- SETTLE_EXPIRY (02 R28): in the run states that evaluate windows, a SETTLING window whose settle expiry is reached. -/
def execSettleExpiry (w : Fin 64) (s : State) : Answered := admitted s.evaluates (fun s => settle (settleCheck w s)) s

/-- SIGNAL_LOST (05 R94 R95 R100). -/
def execSignalLost (k : Fin 4) (s : State) : Answered :=
  admitted (s.link k).signal (fun s => if s.held then signalLost k s else settle (signalLost k s)) s

/-- SIGNAL_PRESENT (05 R94 R95). -/
def execSignalPresent (k : Fin 4) (s : State) : Answered :=
  admitted (!(s.link k).signal) (fun s => if s.held then signalPresent k s else settle (signalPresent k s)) s

/-- HOLD_OFF_EXPIRY (05 R94 R95 R98). -/
def execHoldOffExpiry (k : Fin 4) (s : State) : Answered :=
  admitted (holdOffRuns s k) (fun s => settle (holdOffExpires k s)) s

/-- TRANSMIT_FRAME_DONE (05 R99): the head frame has left and the next one begins. -/
def execTransmitFrameDone (k : Fin 4) (s : State) : Answered :=
  .next (modLink k (fun l => { l with txQueue := l.txQueue.tail }) s)

/-- FRAME_RECEIVED (05 R101 to R104). -/
def execFrameReceived (k : Fin 4) (frame : List Byte) (s : State) : Answered :=
  admitted (decide (s.run = .running) && s.linkUp k) (fun s => settle (receiveFrame k frame s)) s

/-- LAUNCH_GAP_EXPIRY (04 R76). -/
def execLaunchGapExpiry (k : Fin 4) (s : State) : Answered :=
  admitted (gapRuns s k) (fun s => settle (modSched k (fun q => { q with gap := none }) s)) s

/-- PROBE_TIMEOUT (04 R79). -/
def execProbeTimeout (i : Fin 64) (s : State) : Answered :=
  admitted (probeTimerRuns s .waiting i) (fun s => settle (timeoutEntry i s)) s

/-- BACKOFF_EXPIRY (04 R80). -/
def execBackoffExpiry (i : Fin 64) (s : State) : Answered :=
  admitted (probeTimerRuns s .backoff i) (fun s => settle (backoffDone i s)) s

/-- ALIGNMENT_DONE (07 R143): the arithmetic in hand ends; a bus fault has stopped it (07 R144). -/
def execAlignmentDone (s : State) : Answered :=
  admitted (decide (s.cmp.phase = .aligning) && (decide (s.run = .running) || decide (s.run = .stopping)))
    (fun s => settle (finishAlignment s)) s

/-- POLL_TIMER_EXPIRY (09 R158). -/
def execPollTimerExpiry (s : State) : Answered := admitted (pollTimerRuns s) (fun s => settle (poll s)) s

end Sys2Proof.Machine
end

