-- ==== Sys2Proof/Machine/Dispatch.lean ====
section
/-! DEFINITION. The meaning of every command: one arm per constructor, each one direct call. -/

namespace Sys2Proof.Machine

def exec (i : Instr) (s : State) : Host.Outcome State Fault Refusal :=
  match i with
  | .powerOn => Sys2Proof.Machine.execPowerOn s
  | .resetAssert => Sys2Proof.Machine.execResetAssert s
  | .resetRelease => Sys2Proof.Machine.execResetRelease s
  | .selectWrite value => Sys2Proof.Machine.execSelectWrite value s
  | .halt value => Sys2Proof.Machine.execHalt value s
  | .pollNow value => Sys2Proof.Machine.execPollNow value s
  | .irqEnWrite value => Sys2Proof.Machine.execIrqEnWrite value s
  | .eventsWrite value => Sys2Proof.Machine.execEventsWrite value s
  | .eventMaskWrite value => Sys2Proof.Machine.execEventMaskWrite value s
  | .blockBaseWrite value => Sys2Proof.Machine.execBlockBaseWrite value s
  | .journalMarkWrite value => Sys2Proof.Machine.execJournalMarkWrite value s
  | .netTimeWrite value => Sys2Proof.Machine.execNetTimeWrite value s
  | .registerWriteIgnored value => Sys2Proof.Machine.execRegisterWriteIgnored value s
  | .controlBlockReadDone data => Sys2Proof.Machine.execControlBlockReadDone data s
  | .loadWindowReadDone data => Sys2Proof.Machine.execLoadWindowReadDone data s
  | .loadCustodyReadDone data => Sys2Proof.Machine.execLoadCustodyReadDone data s
  | .stoppingEnd data => Sys2Proof.Machine.execStoppingEnd data s
  | .busErrorResponse => Sys2Proof.Machine.execBusErrorResponse s
  | .busTimeout => Sys2Proof.Machine.execBusTimeout s
  | .memoryAccessDone data => Sys2Proof.Machine.execMemoryAccessDone data s
  | .secondEvent => Sys2Proof.Machine.execSecondEvent s
  | .settleExpiry window => Sys2Proof.Machine.execSettleExpiry window s
  | .windowRefreshDone data => Sys2Proof.Machine.execWindowRefreshDone data s
  | .phaseWordWritten data => Sys2Proof.Machine.execPhaseWordWritten data s
  | .signalLost link => Sys2Proof.Machine.execSignalLost link s
  | .signalPresent link => Sys2Proof.Machine.execSignalPresent link s
  | .holdOffExpiry link => Sys2Proof.Machine.execHoldOffExpiry link s
  | .transmitFrameDone link => Sys2Proof.Machine.execTransmitFrameDone link s
  | .frameReceived link frame => Sys2Proof.Machine.execFrameReceived link frame s
  | .launchGapExpiry link => Sys2Proof.Machine.execLaunchGapExpiry link s
  | .probeTimeout slot => Sys2Proof.Machine.execProbeTimeout slot s
  | .backoffExpiry slot => Sys2Proof.Machine.execBackoffExpiry slot s
  | .hostWordReadDone data => Sys2Proof.Machine.execHostWordReadDone data s
  | .routeReadDone data => Sys2Proof.Machine.execRouteReadDone data s
  | .reachMapReadDone data => Sys2Proof.Machine.execReachMapReadDone data s
  | .alignmentDone => Sys2Proof.Machine.execAlignmentDone s
  | .engineWordWritten data => Sys2Proof.Machine.execEngineWordWritten data s
  | .journalEntryWritten data => Sys2Proof.Machine.execJournalEntryWritten data s
  | .pollTimerExpiry => Sys2Proof.Machine.execPollTimerExpiry s
  | .epochReadDone data => Sys2Proof.Machine.execEpochReadDone data s
  | .requestControlReadDone data => Sys2Proof.Machine.execRequestControlReadDone data s
  | .verifyCircuit data => Sys2Proof.Machine.execVerifyCircuit data s
  | .verifySpans data => Sys2Proof.Machine.execVerifySpans data s
  | .abort data => Sys2Proof.Machine.execAbort data s
  | .requestHandbackDone data => Sys2Proof.Machine.execRequestHandbackDone data s

end Sys2Proof.Machine
end

