-- ==== Sys2Proof/Machine/Stepping.lean ====
section
/-! DEFINITION. How the queue of waiting commands drives the part (assumption 11): the command at the front, or, on an empty queue,
the first timer that has run out, or else one millisecond. -/

namespace Sys2Proof.Machine

/-- The step with no command waiting: while the part is held nothing happens. -/
def idleStep (s : State) : Host.Outcome State Fault Refusal :=
  if s.held then .next s
  else match dueCommand s with
    | some c => exec c s
    | none => .next (tick s)

/-- The step on a queue of commands. -/
def stepQueue (s : State) : Host.Outcome State Fault Refusal :=
  match s.pending with
  | [] => idleStep s
  | c :: rest => exec c { s with pending := rest }

/-- A command put at the front of the queue. -/
def pushFront (c : Instr) (s : State) : State := { s with pending := c :: s.pending }

end Sys2Proof.Machine
end

