-- ==== Sys2Proof/Safety.lean ====
section
/-! DEFINITION. What statements about the part are made of: the parts of the state that the blocks' own work never changes, the
run-state changes the spec allows, and the invariants every step keeps. -/

namespace Sys2Proof.Machine

/-- What only the host's writes, the bus, the clock and the pins change: the registers the host owns, the clock, the held parameters,
the fault registers and memory (10 R168 R175 R178). -/
structure HostSide where
  held : Bool
  pending : List Instr
  memory : List Host.Cell
  params : Params
  clock : Clock
  select : BitVec 4
  mask : BitVec 10
  irqEn : Bool
  blockBase : Word
  faultCode : FaultCode
  faultAddr : Word
deriving DecidableEq, Repr

def State.hostSide (s : State) : HostSide :=
  { held := s.held, pending := s.pending, memory := s.memory, params := s.params, clock := s.clock
    select := s.regs.select, mask := s.regs.mask, irqEn := s.regs.irqEn, blockBase := s.regs.blockBase
    faultCode := s.regs.faultCode, faultAddr := s.regs.faultAddr }

/-- The journal's area and where it stands: address, size, write offset, read mark, sequence counter (08 R145 R147). -/
structure Ring where
  base : Word
  size : Nat
  w : Nat
  m : Nat
  seq : Word
deriving DecidableEq, Repr

def Journal.ring (j : Journal) : Ring := { base := j.base, size := j.size, w := j.w, m := j.m, seq := j.seq }

/-- The host side with the links, the Echo Staging FIFO and the journal's ring. -/
structure Surround where
  host : HostSide
  links : Vector Link 4
  fifo : List Echo
  ring : Ring
deriving DecidableEq, Repr

def State.surround (s : State) : Surround :=
  { host := s.hostSide, links := s.links, fifo := s.fifo, ring := s.journal.ring }

/-- The host side and every byte of memory stand as they did. -/
def State.keepsHost (s t : State) : Prop := t.hostSide = s.hostSide ∧ ∀ a, readByte t.memory a = readByte s.memory a

/-- No access but the one on the bus ends: a byte lies outside the word it writes, or it is a read or there is none. -/
def State.outsidePort (s : State) (a : Nat) : Prop :=
  ∀ r x w, s.master.port = some (r, x) → x.write = some w → a < x.addr.toNat ∨ x.addr.toNat + 4 ≤ a

/-- The access on the bus is a read at an address with a tag. -/
def State.readsWith (s : State) (tag : Tag) : Prop := ∃ r addr, s.master.port = some (r, ⟨addr, none, tag⟩)

/-- The access on the bus is a write of a word at an address with a tag. -/
def State.writesWith (s : State) (tag : Tag) : Prop := ∃ r addr w, s.master.port = some (r, ⟨addr, some w, tag⟩)

/-- The port freed by the response of a read (10 R178). -/
def State.portFreed (s : State) : State := { s with master := { s.master with port := none, timer := none } }

/-- The run state a halt request leads to (10 R173). -/
def RunState.afterHalt : RunState → RunState
  | .halted => .halted
  | .loading => .halted
  | .running => .stopping
  | .stopping => .stopping
  | .faulted => .halted

/-- The run-state changes of 10 R173. -/
def RunState.mayBecome : RunState → RunState → Bool
  | .halted, r => decide (r = .halted) || decide (r = .loading) || decide (r = .faulted)
  | .loading, r => decide (r = .loading) || decide (r = .halted) || decide (r = .running) || decide (r = .faulted)
  | .running, r => decide (r = .running) || decide (r = .stopping) || decide (r = .faulted)
  | .stopping, r => decide (r = .stopping) || decide (r = .halted) || decide (r = .faulted)
  | .faulted, r => decide (r = .faulted) || decide (r = .halted)

/-- The bounds the spec puts on the queues of echoes and frames (05 R104 R99). -/
def Surround.bounded (x : Surround) : Prop :=
  x.fifo.length ≤ 16 ∧ ∀ k : Fin 4, (x.links.get k).txQueue.length ≤ 32

def State.queuesBounded (s : State) : Prop := s.surround.bounded

/-- The geometry of the journal: offsets are multiples of 8 below its size (08 R145). -/
def Journal.geometry (j : Journal) : Prop :=
  j.size % 8 = 0 ∧ 1024 ≤ j.size ∧ j.w < j.size ∧ j.m < j.size ∧ j.w % 8 = 0 ∧ j.m % 8 = 0

/-- The journal holds no area, or one of the geometry of 08 R145 with the offset that the entry being written will leave in it; every
entry offered or in hand is of whole 8-byte units (08 R145 R146). -/
def Journal.sound (j : Journal) : Prop :=
  (j.size = 0 ∧ j.w = 0 ∧ j.m = 0 ∧ j.nextW = 0 ∨ j.geometry ∧ j.nextW < j.size ∧ j.nextW % 8 = 0) ∧
  (∀ x, j.hand = some x → x.2.body.length % 2 = 0) ∧ (∀ src e, j.offer src = some e → e.body.length % 2 = 0)

end Sys2Proof.Machine
end

