-- ==== Sys2Proof/Certificates/Slice0/Obligations.lean ====
section
/-! DEFINITION. The statements for the provers. In the statements about a command that the blocks' service follows, `settle u` is the
state after that service (03 R50 R59, 04 R76, 06 R108, 08 R148, 10 R178): `u` is the state the command's own event leaves, and what a
statement says of `u` is what the rule it cites says of that event. -/

open Sys2Proof Sys2Proof.Machine

/-! ### Pins and registers (10 R168 to R172 R180) -/

/-- R180: power-on and the reset pin hold the part: every register and collection at its power-on value, the interrupt line released, every
queued access discarded, the queue of commands and the lines' signals as they stood (log entries 1 and 4), and shared memory untouched but
for the word of a write that was on the bus, which holds its old value or its new one. The release of the pin ends the hold and changes
nothing else. -/
def Obligations.PinsHoldThePart : Prop :=
  ∀ s : State, ∃ t, exec .powerOn s = .next t ∧ exec .resetAssert s = .next t ∧
    t.held = true ∧ t.pending = s.pending ∧ t.regs = {} ∧ t.clock = {} ∧ t.params = {} ∧ t.loader = {} ∧ t.master = {} ∧
    t.custody = {} ∧ t.sched = {} ∧ t.ctrl = {} ∧ t.probes = {} ∧ t.fifo = [] ∧ t.cmp = {} ∧ t.journal = {} ∧ t.reader = {} ∧
    (∀ k, t.link k = { signal := (s.link k).signal }) ∧ irqLine t = false ∧
    (∀ a, s.outsidePort a → readByte t.memory a = readByte s.memory a) ∧
    (t.memory = s.memory ∨
      ∃ r x w, s.master.port = some (r, x) ∧ x.write = some w ∧ t.memory = writeWord s.memory x.addr w) ∧
    exec .resetRelease s = .next { s with held := false }

/-- R168 R172 R180: CONTROL as read: the run state in bits 2..0, the fault code in bits 7..4, HALT reads 0, POLL_NOW in bit 9, IRQ_EN in
bit 10, every other bit 0; the other registers at their indices; indices 9 to 15 read 0; while the part is held every register
reads 0. The interrupt line is asserted exactly while the part is not held, IRQ_EN is set and some event's bit is set in both EVENTS
and EVENT_MASK. -/
def Obligations.RegisterReadsAndInterruptLine : Prop :=
  ∀ s : State,
    (s.held = true → readData s = 0) ∧
    (s.held = false →
      (s.regs.select = 0 → readData s = 0x4A840C01) ∧
      (s.regs.select = 1 → (readData s).toNat =
        s.regs.runState.code + 16 * s.regs.faultCode.code + 512 * s.regs.pollNow.toNat + 1024 * s.regs.irqEn.toNat) ∧
      (s.regs.select = 2 → ∀ e : Event, (readData s).getLsbD e.index = s.hasEvent e) ∧
      (s.regs.select = 3 → readData s = s.regs.mask.setWidth 32) ∧
      (s.regs.select = 4 → readData s = s.regs.blockBase) ∧
      (s.regs.select = 5 → readData s = BitVec.ofNat 32 s.journal.w) ∧
      (s.regs.select = 6 → readData s = BitVec.ofNat 32 s.journal.m) ∧
      (s.regs.select = 7 → readData s = s.clock.netTime) ∧
      (s.regs.select = 8 → readData s = s.regs.faultAddr) ∧
      (9 ≤ s.regs.select.toNat → readData s = 0)) ∧
    (irqLine s = true ↔
      s.held = false ∧ s.regs.irqEn = true ∧ ∃ e : Event, s.hasEvent e = true ∧ s.regs.mask.getLsbD e.index = true)

/-- R168 R169 R172 R180: a SELECT write keeps the low 4 bits of the value as the index and changes nothing else; while the part is held
it is ignored. A DATA write acts on the register at the SELECT index only: each command that is a write of one register leaves the state
as it stands while the part is held or SELECT holds another index (the model's reading of such a command: log entry 6), and a write that
no register takes changes nothing. A write to EVENTS clears each event bit written as 1 and leaves each bit written as 0; a write to
EVENT_MASK sets the ten mask bits to the value written; a CONTROL write without HALT and POLL_NOW sets IRQ_EN to bit 10. None of these
three changes anything else. -/
def Obligations.RegisterWritesActOnTheSelectedRegister : Prop :=
  ∀ (value : Word) (s : State),
    (s.held = true → exec (.selectWrite value) s = .next s) ∧
    (s.held = false → ∃ t, exec (.selectWrite value) s = .next t ∧ readSelect t = value &&& 15#32 ∧
      t = { s with regs := { s.regs with select := t.regs.select } }) ∧
    exec (.registerWriteIgnored value) s = .next s ∧
    (∀ p ∈ [(1, Instr.halt value), (1, .pollNow value), (1, .irqEnWrite value), (2, .eventsWrite value), (3, .eventMaskWrite value),
        (4, .blockBaseWrite value), (6, .journalMarkWrite value), (7, .netTimeWrite value)],
      (s.held = true ∨ s.regs.select.toNat ≠ p.1) → exec p.2 s = .next s) ∧
    (s.held = false → s.regs.select = 2 → ∃ t, exec (.eventsWrite value) s = .next t ∧
      (∀ e : Event, t.hasEvent e = (s.hasEvent e && !value.getLsbD e.index)) ∧
      t = { s with regs := { s.regs with events := t.regs.events } }) ∧
    (s.held = false → s.regs.select = 3 → ∃ t, exec (.eventMaskWrite value) s = .next t ∧
      (∀ e : Event, t.regs.mask.getLsbD e.index = value.getLsbD e.index) ∧
      t = { s with regs := { s.regs with mask := t.regs.mask } }) ∧
    (s.held = false → s.regs.select = 1 → value.getLsbD 8 = false → value.getLsbD 9 = false →
      exec (.irqEnWrite value) s = .next { s with regs := { s.regs with irqEn := value.getLsbD 10 } })

/-- R159 R160 R161 R169: a CONTROL write with POLL_NOW and without HALT. Outside RUNNING it holds the request, sets IRQ_EN and changes
nothing else. In RUNNING it is a trigger: with the reader IDLE a sweep begins at the event (POLL_NOW clears, the start time is taken, and
the custody sweep asks for circuit 0); otherwise POLL_NOW stays held and the sweep-pending flag is set. Nothing else changes at the event,
and no byte of memory. -/
def Obligations.PollNowIsHeldOrTriggersASweep : Prop :=
  ∀ (value : Word) (s : State), s.held = false → s.regs.select = 1 → value.getLsbD 9 = true → value.getLsbD 8 = false →
    (s.run ≠ .running →
      exec (.pollNow value) s = .next { s with regs := { s.regs with irqEn := value.getLsbD 10, pollNow := true } }) ∧
    (s.run = .running → ∃ u, exec (.pollNow value) s = .next (settle u) ∧
      u = { s with regs := u.regs, reader := u.reader, custody := u.custody } ∧
      u.regs = { s.regs with irqEn := value.getLsbD 10, pollNow := u.regs.pollNow } ∧
      (s.reader.sweep = .idle →
        u.regs.pollNow = false ∧ u.reader = { s.reader with sweep := .custody, sweepStart := s.clock.netTime, circuit := 0 } ∧
        u.custody = { s.custody with queue := s.custody.queue ++ [(s.eventNo, .sweep 0)] }) ∧
      (s.reader.sweep ≠ .idle →
        u.regs.pollNow = true ∧ u.reader = { s.reader with sweepPending := true } ∧ u.custody = s.custody) ∧
      (∀ a, readByte (settle u).memory a = readByte s.memory a))

/-- R173 R169 R179 R23 R44 R69 R91 R127 R155 R167: a CONTROL write with HALT, by the run state: LOADING and FAULTED become HALTED, RUNNING
becomes STOPPING, HALTED and STOPPING stay. IRQ_EN takes bit 10; a POLL_NOW written with it stays held through the halt (log entry 13); the
fault code, FAULT_ADDR and every other register keep their values; no byte of memory changes. In HALTED, STOPPING and FAULTED nothing else
changes. From RUNNING, at the event itself: the window refresh is abandoned, the poll timer stops, the sweep ends and the pending trigger
clears, a request slot keeps only an answer already made; the requests waiting in the Custody Unit but the Comparator's are dropped and so
is an action still reading that is not the Comparator's, each selection among them ending its step with no outcome; the Circuit State Map,
the windows, the fence, the entries and the links stand; the accesses already handed over stay and the run state field's STOPPING word is
handed after them. The Journal Writer and the Comparator go on, but a stalled entry is abandoned, the offers behind it standing for their
own placement test (log entry 27): the Comparator is then IDLE with its entry and circuit as they stand, and a summary's slot stands. From
LOADING the load is abandoned: a custody action still reading ends, one still writing ends with its engine word, an entry not taken or
stalled is abandoned and its action ends; the map and the blocks stand, and so does the Campaign Table, with nothing handed over, whichever
session's entry was stalled (log entry 18). -/
def Obligations.HaltRequestByRunState : Prop :=
  ∀ (value : Word) (s : State), s.held = false → s.regs.select = 1 → value.getLsbD 8 = true →
    let handed := fun (u : State) (r : Requester) => (u.queue r).map (fun a => (a.addr, a.write))
    let dropped := fun (i : Fin 8) =>
      (∃ n id c, (n, CustodyReq.select i id c true) ∈ s.custody.queue) ∨
      (∃ a id c, s.custody.action = some a ∧ a.phase.isReading = true ∧ a.req = .select i id c true)
    ∃ u, exec (.halt value) s = .next (settle u) ∧
      u.regs = { s.regs with
        runState := s.run.afterHalt, irqEn := value.getLsbD 10, pollNow := s.regs.pollNow || value.getLsbD 9 } ∧
      (settle u).run = s.run.afterHalt ∧ (settle u).hostSide = { s.hostSide with irqEn := value.getLsbD 10 } ∧
      (∀ a, readByte (settle u).memory a = readByte s.memory a) ∧
      (s.run ≠ .running → s.run ≠ .loading → u = { s with regs := u.regs }) ∧
      (s.run = .running →
        u = { s with
          regs := u.regs, master := u.master, custody := u.custody, ctrl := u.ctrl, cmp := u.cmp, journal := u.journal
          sched := { s.sched with refresh := none }
          reader := { s.reader with
            pollTimer := none, sweep := .idle, sweepPending := false
            stage := if s.reader.stage = .answered then .answered else .none } } ∧
        u.custody.map = s.custody.map ∧ u.custody.queue = s.custody.queue.filter (fun x => x.2.isCompare) ∧
        (∀ a, s.custody.action = some a → a.phase.isReading = true → a.req.isCompare = false → u.custody.action = none) ∧
        (s.journal.phase ≠ .stalled →
          u.journal = s.journal ∧ u.cmp = s.cmp ∧ u.ctrl.nextId = s.ctrl.nextId ∧ u.ctrl.offer = s.ctrl.offer ∧
          (∀ a, s.custody.action = some a → a.phase.isReading = false ∨ a.req.isCompare = true → u.custody.action = some a) ∧
          (∀ i, dropped i → u.campaign i = { s.campaign i with step := .idle }) ∧
          (∀ i, ¬ dropped i → u.campaign i = s.campaign i) ∧
          (∀ r, handed u r =
            handed s r ++ (if r = .loader then [(addrOf s.params.controlBlock 0x100, some 3#32)] else []))) ∧
        (∀ src e, s.journal.phase = .stalled → s.journal.hand = some (src, e) →
          u.journal = { s.journal with phase := .idle, hand := none } ∧
          (src = .comparator → u.cmp = { lastOutcome := s.cmp.lastOutcome } ∧ u.custody.action = none) ∧
          (src ≠ .comparator → u.cmp = s.cmp) ∧
          (src = .campaign → u.ctrl.offer = none) ∧
          (∀ a o, src = .custody → s.custody.action = some a → a.phase = .entry o → u.custody.action = none))) ∧
      (s.run = .loading →
        u = { s with
          regs := u.regs, loader := {}, master := u.master, custody := { s.custody with action := u.custody.action }
          ctrl := u.ctrl, cmp := u.cmp, journal := u.journal } ∧
        u.ctrl = { s.ctrl with offer := u.ctrl.offer } ∧ (∀ r, handed u r = handed s r) ∧
        (∀ src e, s.journal.hand = some (src, e) → src ≠ .campaign → u.ctrl = s.ctrl) ∧
        (s.journal.phase ≠ .stalled → u.ctrl = s.ctrl ∧ u.cmp = s.cmp ∧
          ∀ a, s.custody.action = some a →
            (a.phase.isReading = true → u.custody.action = none ∧ u.journal = s.journal) ∧
            (∀ o, a.phase = .writing (.finish o) → u.custody.action = some a ∧ u.journal = s.journal) ∧
            (∀ rev v b ids o, a.phase = .writing (.journal rev v b ids o) →
              u.custody.action = some { a with phase := .writing (.finish o) } ∧ u.journal = s.journal) ∧
            (∀ o, a.phase = .entry o → s.journal.custOffer.isSome = true →
              u.custody.action = none ∧ u.journal = { s.journal with custOffer := none }) ∧
            (∀ o, a.phase = .entry o → s.journal.custOffer = none → u.custody.action = some a ∧ u.journal = s.journal)) ∧
        (∀ e a o c, s.journal.phase = .stalled → s.journal.hand = some (.custody, e) → s.custody.action = some a →
          a.phase = .entry o → a.req = .load c →
          u.custody.action = none ∧ u.journal = { s.journal with phase := .idle, hand := none, custOffer := none }))

/-! ### Loading and the Memory Master (10 R170 R174 to R178) -/

/-- R170 R174: a BLOCK_BASE write. Outside HALTED it is refused: the register keeps its value and REG_REFUSED is set. In HALTED it is
stored and clears the fault code: a value that is no multiple of 64 leaves the part HALTED with fault code BASE_ALIGN, FAULT_ADDR the
value and LOAD_FAULT set; any other value makes the part LOADING and hands the read of the first Control Block word to the Memory
Master (one word at a time: log entry 3). Nothing else changes at the event. -/
def Obligations.BlockBaseWriteStartsALoad : Prop :=
  ∀ (value : Word) (s : State), s.held = false → s.regs.select = 4 →
    ∃ u, exec (.blockBaseWrite value) s = .next (settle u) ∧ (settle u).run = u.run ∧
      (∀ a, readByte (settle u).memory a = readByte s.memory a) ∧
      u = { s with regs := u.regs, loader := u.loader, master := u.master } ∧
      (s.run ≠ .halted → u.hasEvent .regRefused = true ∧ u.regs = { s.regs with events := u.regs.events } ∧
        u.loader = s.loader ∧ u.master = s.master) ∧
      (s.run = .halted → value.toNat % 64 ≠ 0 → u.hasEvent .loadFault = true ∧
        u.regs = { s.regs with events := u.regs.events, blockBase := value, faultCode := .baseAlign, faultAddr := value } ∧
        u.loader = {} ∧ u.master = s.master) ∧
      (s.run = .halted → value.toNat % 64 = 0 →
        u.regs = { s.regs with runState := .loading, blockBase := value, faultCode := .none } ∧
        u.loader = { step := .controlBlock } ∧
        u.queue .loader = s.queue .loader ++ [⟨value, none, .controlBlock⟩] ∧
        ∀ r, r ≠ .loader → u.queue r = s.queue r)

/-- R174 R182: the structural checks on the words read, in the order of the table, each with the offset of the word that holds the
failing value; the addresses in the order Circuit Table, Route Pool, Window List, Request List, Reach Map, journal. When the last Control
Block word of a load returns (the reads come in order, one at a time: log entry 3) and a check fails, the part is HALTED, the fault code and
FAULT_ADDR take the check's code and the address of the failing word, LOAD_FAULT is set, and every other on-chip state stands. -/
def Obligations.StructuralChecksDecideTheLoad : Prop :=
  (∀ ws : List Word,
    let circuits := (cbWord ws 0x004).toNat
    let pool := bits (cbWord ws 0x00C) 15 0
    let slots := (cbWord ws 0x01C).toNat
    let size := (cbWord ws 0x028).toNat
    let aligned := fun o => (cbWord ws o).toNat % 8 = 0
    let addresses := [0x000, 0x008, 0x010, 0x018, 0x020, 0x024]
    (structuralFault ws = some (.circuitCount, 0x004) ↔ ¬ (1 ≤ circuits ∧ circuits ≤ 4096)) ∧
    ((1 ≤ circuits ∧ circuits ≤ 4096) → (structuralFault ws = some (.poolSize, 0x00C) ↔ pool = 0)) ∧
    ((1 ≤ circuits ∧ circuits ≤ 4096) → pool ≠ 0 → (structuralFault ws = some (.slotCount, 0x01C) ↔ slots = 0)) ∧
    ((1 ≤ circuits ∧ circuits ≤ 4096) → pool ≠ 0 → slots ≠ 0 →
      (structuralFault ws = some (.journalSize, 0x028) ↔ ¬ (1024 ≤ size ∧ size ≤ 1048576 ∧ size % 8 = 0))) ∧
    ((1 ≤ circuits ∧ circuits ≤ 4096) → pool ≠ 0 → slots ≠ 0 → (1024 ≤ size ∧ size ≤ 1048576 ∧ size % 8 = 0) →
      (∀ before o after, addresses = before ++ o :: after →
        (structuralFault ws = some (.tableAlign, o) ↔ ¬ aligned o ∧ ∀ p ∈ before, aligned p)) ∧
      (structuralFault ws = none ↔ ∀ o ∈ addresses, aligned o))) ∧
  (∀ (data : Word) (s : State) (code : FaultCode) (offset : Nat),
    s.run = .loading → s.readsWith .controlBlock → s.loader.got.length = 33 →
    structuralFault (s.loader.got ++ [data]) = some (code, offset) →
    ∃ u, exec (.controlBlockReadDone data) s = .next (settle u) ∧ (settle u).run = .halted ∧ u.hasEvent .loadFault = true ∧
      u = { s.portFreed with regs := u.regs, loader := {} } ∧
      u.regs = { s.regs with
        runState := .halted, events := u.regs.events, faultCode := code
        faultAddr := s.regs.blockBase + BitVec.ofNat 32 offset } ∧
      (∀ a, readByte (settle u).memory a = readByte s.memory a))

/-- R174 R176 R105 R106 R154 R182: the last Control Block word returns (log entry 3) and every check passes: the parameters are clamped and
held with the Control Block's address (log entry 23), the Probe Table (generations kept), the Campaign Table, the Comparator, the FIFO, the
link counters and the Circuit State Map are cleared, the journal takes its address and size with w and m at 0 and the sequence counter at 1,
each link starts afresh, and the window step begins; with no window to read, the custody step begins with circuit 0. The part stays LOADING
and no byte of memory changes. Handed over at the event, in the new Control Block: the run state LOADING, the occupancy 0, the eight FREE
slot words, w as 0, each link's state and five counters of 0, and the first read of the step that begins; accesses handed before the load
complete without effect, phase words excepted. -/
def Obligations.LoadClearsAndStartsTheBlocks : Prop :=
  ∀ (data : Word) (s : State),
    let ws := s.loader.got ++ [data]
    s.run = .loading → s.readsWith .controlBlock → s.loader.got.length = 33 → structuralFault ws = none →
    ∃ u, exec (.controlBlockReadDone data) s = .next (settle u) ∧ (settle u).run = .loading ∧
      (settle u).hostSide = { s.hostSide with params := { paramsOf ws with controlBlock := s.regs.blockBase } } ∧
      (∀ a, readByte (settle u).memory a = readByte s.memory a) ∧
      u.regs = s.regs ∧ u.clock = s.clock ∧ u.reader = { s.reader with pollTimer := none } ∧ u.ctrl = {} ∧ u.cmp = {} ∧ u.fifo = [] ∧ u.sched = {} ∧
      u.custody.map = [] ∧ u.custody.queue = [] ∧
      (∀ i, u.entry i = { generation := (s.entry i).generation }) ∧ u.probes.outcomes = [] ∧
      (∀ k, u.launchSched k = {}) ∧
      u.journal = { base := cbWord ws 0x024, size := (cbWord ws 0x028).toNat } ∧
      (∀ k, u.link k =
        { signal := (s.link k).signal, started := true
          state := if ((paramsOf ws).links.get k).enabled && (s.link k).signal then .restoring else .down
          holdOff := if ((paramsOf ws).links.get k).enabled && (s.link k).signal
            then some (((paramsOf ws).links.get k).holdOff * 10) else none }) ∧
      u.loader.epoch = cbWord ws 0x084 ∧ u.loader.step = (if (paramsOf ws).windowCount = 0 then .custody else .windows) ∧
      u.loader.index = 0 ∧
      (let before := fun (q : Requester) => (s.queue q).map (orphanAccess (fun g => decide (g ≠ .phaseWord)))
       let cb := fun (o : Nat) (w : Word) => (⟨addrOf s.regs.blockBase o, some w, .plain⟩ : Access)
       let none' := (paramsOf ws).windowCount = 0
       u.queue .loader = before .loader ++ [cb 0x100 1] ∧ u.queue .probe = before .probe ++ [cb 0x10C 0] ∧
       u.queue .campaign = before .campaign ++ (List.finRange 8).map (fun i => cb (0x170 + 4 * i.val) 0) ∧
       u.queue .journal = before .journal ++ [cb 0x104 0] ∧ u.queue .request = before .request ∧
       (∀ k : Fin 4, u.queue (.link k) = before (.link k) ++
         [cb (0x110 + 24 * k.val) (field (u.link k).state.code 2 0), cb (0x114 + 24 * k.val) 0, cb (0x118 + 24 * k.val) 0,
           cb (0x11C + 24 * k.val) 0, cb (0x120 + 24 * k.val) 0, cb (0x124 + 24 * k.val) 0]) ∧
       u.queue .window = before .window ++ (if none' then [] else [⟨cbWord ws 0x010, none, .loadWindow⟩]) ∧
       u.queue .custody = before .custody ++ (if none' then [⟨cbWord ws 0x000, none, .record⟩] else []) ∧
       u.custody.action = if none' then some { req := .load 0, phase := .reading [] } else none)

/-- R175 R92 R129: the value each parameter is held at: the value read where it lies in the parameter's range, else the bound of the range
that it lies beyond; WEIGHTED and BIND by their codes, every other code STRICT and REROUTE; addresses, circuit count, pool size and journal
size as read. -/
def Obligations.ClampedParametersAreHeld : Prop :=
  ∀ ws : List Word,
    let p := paramsOf ws
    let cb := cbWord ws
    let holds := fun (v lo hi x : Nat) =>
      (lo ≤ v ∧ v ≤ hi) ∧ (lo ≤ x → x ≤ hi → v = x) ∧ (x < lo → v = lo) ∧ (hi < x → v = hi)
    holds p.windowCount 0 64 (cb 0x014).toNat ∧ holds p.slotCount 1 32 (cb 0x01C).toNat ∧
    holds p.ownNode 0 1023 (bits (cb 0x02C) 15 0) ∧ holds p.driftLimit 0 2000 (bits (cb 0x050) 15 0) ∧
    holds p.probeTimeout 1 1000 (bits (cb 0x054) 15 0) ∧ holds p.backoffBase 1 1000 (bits (cb 0x054) 31 16) ∧
    holds p.retries 0 7 (bits (cb 0x058) 7 0) ∧ holds p.depth 1 64 (bits (cb 0x058) 15 8) ∧
    holds p.urgentWeight 1 15 (bits (cb 0x058) 23 16) ∧ holds p.routineWeight 1 15 (bits (cb 0x058) 31 24) ∧
    (p.weighted = true ↔ bits (cb 0x05C) 7 0 = 1) ∧ holds p.pollPeriod 1 255 (bits (cb 0x05C) 31 16) ∧
    holds p.defaultSettle 1 3600 (bits (cb 0x060) 15 0) ∧
    (∀ k : Fin 8, holds (p.tolerance.get k).upper 0 1000 (bits (cb (0x030 + 4 * k.val)) 15 0) ∧
      holds (p.tolerance.get k).lower 0 1000 (bits (cb (0x030 + 4 * k.val)) 31 16)) ∧
    (∀ k : Fin 4,
      ((p.links.get k).enabled = true ↔ bits (cb (0x064 + 8 * k.val)) 0 0 = 1) ∧
      ((p.links.get k).linkage = .bind ↔ bits (cb (0x064 + 8 * k.val)) 11 8 = 1) ∧
      holds (p.links.get k).holdOff 1 255 (bits (cb (0x064 + 8 * k.val)) 31 16) ∧
      holds (p.links.get k).limit 1 32 (bits (cb (0x068 + 8 * k.val)) 15 0) ∧
      holds (p.links.get k).gap 0 255 (bits (cb (0x068 + 8 * k.val)) 31 16)) ∧
    p.circuitTable = cb 0x000 ∧ p.circuitCount = (cb 0x004).toNat ∧ p.routePool = cb 0x008 ∧
    p.poolSize = bits (cb 0x00C) 15 0 ∧ p.windowList = cb 0x010 ∧ p.requestList = cb 0x018 ∧ p.reachMap = cb 0x020 ∧
    p.journalBase = cb 0x024 ∧ p.journalSize = (cb 0x028).toNat

/-- R22 R12 R176 R166 R173 R158 R159: the last word of a record read of the load's custody step returns (log entry 3). The map entry is
taken from the engine word, CLAIMED as WATCHED. With an ACTIVE request the route is then read, from record word 0x04, for every circuit but
a REJECTED one whose revision is the captured one; VACANT makes the entry IGNORED and RECALL makes WATCHED and REJECTED entries RELEASED;
last verdict and campaign id stay as the word showed (log entry 12). An engine word that shows another state than the one reached is
written; with nothing to read or write the circuit's action ends at once, and one that writes ends with its last write. No byte of memory
changes. Where an action ends, the next circuit's record is read, host word first (log entry 3). After the last circuit the load ends at
that event: the last sweep time is written as NET_TIME, the reader takes the epoch word the load read, request index 0, no sweep and no
pending trigger, its poll timer set; the part is RUNNING, the run state field is written and LOAD_DONE set; a held POLL_NOW clears and
begins a sweep. Nothing else changes but what the services of the event then do. -/
def Obligations.LoadTakesTheMapFromEngineWords : Prop :=
  (∀ (data : Word) (s : State) (c : Nat) (got : List Word),
    s.readsWith .record → s.custody.action = some { req := .load c, phase := .reading got } → got.length = 5 →
    let words := recordWords (got ++ [data])
    let shown := mapEntryOfWord words.engine
    let same := hostRevision words.host = bits words.captured 15 0
    ∃ u, exec (.loadCustodyReadDone data) s = .next (settle u) ∧
      u = { s.portFreed with
        custody := u.custody, master := u.master, loader := u.loader, reader := u.reader, regs := u.regs } ∧
      (settle u).hostSide = s.hostSide ∧ (∀ a, readByte (settle u).memory a = readByte s.memory a) ∧
      (∀ d, d ≠ c → u.mapEntry d = s.mapEntry d) ∧
      u.mapEntry c = { shown with
        engine := if hostRequest words.host = .active then shown.engine
          else if hostRequest words.host = .recall ∧ shown.engine ≠ .ignored then .released else .ignored } ∧
      (hostRequest words.host = .active → ¬ (shown.engine = .rejected ∧ same) →
        u.queue .custody = s.queue .custody ++ [⟨recordAddr s c 0x04, none, .route⟩] ∧
        u.custody.action = some { req := .load c, phase := .routing words {} }) ∧
      (bits words.engine 2 0 ≠ (u.mapEntry c).engine.code →
        ¬ (hostRequest words.host = .active ∧ ¬ (shown.engine = .rejected ∧ same)) →
        u.custody.action = some { req := .load c, phase := .writing (.finish .notWatched) } ∧
        u.queue .custody = s.queue .custody ++ [⟨recordAddr s c 0x0C,
          some (engineWord (u.mapEntry c).engine shown.lastVerdict shown.lastCampaign), .actionEnd⟩]) ∧
      (bits words.engine 2 0 = (u.mapEntry c).engine.code →
        ¬ (hostRequest words.host = .active ∧ ¬ (shown.engine = .rejected ∧ same)) →
        u = loadNext (setAction none (setMapEntry c (u.mapEntry c) s.portFreed)))) ∧
  (∀ (data : Word) (s : State) (r : Requester) (x : Access) (a : Action) (c : Nat) (o : SelectOutcome),
    s.master.port = some (r, x) → x.tag = .actionEnd → s.custody.action = some a → a.req = .load c →
    a.phase = .writing (.finish o) →
    exec (.memoryAccessDone data) s = .next (settle (loadNext (setAction none (endAccess x s))))) ∧
  (∀ (s : State), s.run = .loading → s.loader.step = .custody → s.loader.index + 1 < s.params.circuitCount →
    let next := s.loader.index + 1
    let t := loadNext s
    t = { s with loader := { s.loader with index := next }, custody := t.custody, master := t.master } ∧
    t.custody = { s.custody with action := some { req := .load next, phase := .reading [] } } ∧
    t.queue .custody = s.queue .custody ++ [⟨recordAddr s next 0x00, none, .record⟩] ∧
    t.master.port = s.master.port ∧ ∀ q, q ≠ .custody → t.queue q = s.queue q) ∧
  (∀ (s : State), s.run = .loading → s.loader.step = .custody → s.params.circuitCount ≤ s.loader.index + 1 →
    let t := loadNext s
    let now := s.clock.netTime
    let taken : Reader :=
      { lastEpoch := s.loader.epoch, nextIndex := 0, pollTimer := some (s.params.pollPeriod * 10), sweep := .idle
        sweepPending := false, sweepStart := s.reader.sweepStart }
    t = { s with regs := t.regs, loader := {}, master := t.master, custody := t.custody, reader := t.reader } ∧
    t.regs = { s.regs with runState := .running, events := t.regs.events, pollNow := false } ∧
    t.hasEvent .loadDone = true ∧ (∀ e, e ≠ .loadDone → t.hasEvent e = s.hasEvent e) ∧
    t.queue .request = s.queue .request ++ [⟨addrOf s.params.controlBlock 0x108, some now, .plain⟩] ∧
    t.queue .loader = s.queue .loader ++ [⟨addrOf s.params.controlBlock 0x100, some 2#32, .plain⟩] ∧
    t.master.port = s.master.port ∧ (∀ q, q ≠ .request → q ≠ .loader → t.queue q = s.queue q) ∧
    (s.regs.pollNow = false → t.reader = taken ∧ t.custody = s.custody) ∧
    (s.regs.pollNow = true → t.reader = { taken with sweep := .custody, sweepStart := now, circuit := 0 } ∧
      t.custody = { s.custody with queue := s.custody.queue ++ [(s.eventNo, .sweep 0)] }))

/-- R178 R177 R173 R5 R9 R32 R45 R164 R174: the response of the access on the bus frees the port before its requester is told; a write's
word is then in memory, low byte first, every other byte reads as before, and a read changes no byte. Whatever the requester does, the
part's only change of memory is that word. The response of the HALTED write, the event STOPPING_END names (log entry 21), makes a STOPPING
part HALTED; no event bit is set, and nothing but the run state and the word written changes. The response of a read that does not end its
operation (Control Block, window entry, record, route, window refresh, request arguments: one word at a time, in the order of log entry 3)
joins its word to those read and hands over the read of the next address, and nothing else changes before the services of the event;
RouteReadFollowsTheChecks says which words a route read reads. The Loader hands that write over once, at the first event of a stop at whose
end the Comparator and the Journal Writer are IDLE with no entry offered, the Custody Unit holds no action, no slot's writes are outstanding
and the Memory Master holds no access. The services that follow every event, in the one order the model serves them (log entry 20). -/
def Obligations.ResponseChangesTheWrittenWordOnly : Prop :=
  (∀ (data : Word) (s : State) (r : Requester) (x : Access), s.master.port = some (r, x) →
    (∃ u, exec (.memoryAccessDone data) s = .next (settle (deliver x.tag data u)) ∧ u.master.port = none ∧
      u = { s with master := { s.master with port := none, timer := none }, memory := u.memory } ∧
      (∀ a, s.outsidePort a → readByte (settle (deliver x.tag data u)).memory a = readByte s.memory a) ∧
      (∀ w, x.write = some w → readWord (settle (deliver x.tag data u)).memory x.addr = w)) ∧
    (x.tag = .haltedWrite → s.run = .stopping →
      ∃ u, exec (.stoppingEnd data) s = .next (settle u) ∧ (settle u).run = .halted ∧
        u = { endAccess x s with
          regs := { s.regs with runState := .halted }, loader := { s.loader with stopHanded := false } } ∧
        (∀ a, s.outsidePort a → readByte (settle u).memory a = readByte s.memory a))) ∧
  (∀ (s : State),
    let ready := s.run = .stopping ∧ s.cmp.phase = .idle ∧ s.journal.phase = .idle ∧ (∀ src, s.journal.offer src = none) ∧
      s.custody.action = none ∧ s.reader.stage ≠ .answered ∧ s.master.port = none ∧ (∀ q, s.queue q = []) ∧
      s.loader.stopHanded = false
    let t := serveStop s
    (¬ ready → t = s) ∧
    (ready → t = { s with loader := { s.loader with stopHanded := true }, master := t.master } ∧
      t.queue .loader = [⟨addrOf s.params.controlBlock 0x100, some 0#32, .haltedWrite⟩] ∧ (∀ q, q ≠ .loader → t.queue q = []) ∧
      t.master.port = none)) ∧
  (∀ (s : State),
    let served := serveSummaries (serveLaunches (serveComparator (serveClaims (serveGrants s))))
    let t := serveStop (flushPhaseWords (serveCustody (serveJournal served)))
    settle s = issue { t with eventNo := t.eventNo + 1 }) ∧
  (∀ (data : Word) (s : State),
    let goesOn := fun (q : Requester) (addr : Word) (tag : Tag) (t : State) =>
      ∃ u, exec (.memoryAccessDone data) s = .next (settle u) ∧ u = { t with master := u.master } ∧ u.master.port = none ∧
        u.queue q = s.queue q ++ [⟨addr, none, tag⟩] ∧ ∀ p, p ≠ q → u.queue p = s.queue p
    let t := s.portFreed
    let after := fun (got : List Word) => got ++ [data]
    (s.readsWith .controlBlock → s.run = .loading → s.loader.got.length + 1 < 34 →
      goesOn .loader (addrOf s.regs.blockBase (4 * (s.loader.got.length + 1))) .controlBlock
        { t with loader := { s.loader with got := after s.loader.got } }) ∧
    (s.readsWith .loadWindow → s.run = .loading → s.loader.got.length + 1 < 22 →
      let n := s.loader.got.length + 1
      goesOn .window (addrOf s.params.windowList (96 * s.loader.index + (if n < 20 then 4 * n else 0x58 + 4 * (n - 20)))) .loadWindow
        { t with loader := { s.loader with got := after s.loader.got } }) ∧
    (∀ a got, s.readsWith .record → s.custody.action = some a → a.phase = .reading got → got.length + 1 < 6 →
      goesOn .custody (recordAddr s a.req.circuit ([0x00, 0x0C, 0x10, 0x14, 0x18, 0x1C].getD (got.length + 1) 0)) .record
        { t with custody := { s.custody with action := some { a with phase := .reading (after got) } } }) ∧
    (∀ a words rr next addr, s.readsWith .route → s.custody.action = some a → a.phase = .routing words rr →
      routeAdvance s a.req.circuit rr data = .read next addr →
      goesOn .custody addr .route { t with custody := { s.custody with action := some { a with phase := .routing words next } } }) ∧
    (∀ r, s.readsWith .refresh → s.sched.refresh = some r →
      let n := r.got.length + 1
      let next := fun (o : Nat) => goesOn .window (addrOf s.params.windowList (96 * r.window.val + o)) .refresh
        { t with sched := { s.sched with refresh := some { r with got := after r.got } } }
      (r.kind = .full → n < 20 → next (4 * n)) ∧ (r.kind = .armAndClose → n = 1 → next 0x08)) ∧
    (∀ control got, s.readsWith .reqArg → s.reader.stage = .args control got → requestKind control = .verifySpans →
      got.length + 1 < 5 →
      goesOn .request (addrOf s.params.requestList (48 * s.reader.nextIndex + 4 * (got.length + 2))) .reqArg
        { t with reader := { s.reader with stage := .args control (after got) } }))

/-- R178 R107: an error response and a bus timeout, which BUS_TIMEOUT is whatever its timer shows (log entry 11), end the access on the bus
in a bus fault, in every run state: the part is FAULTED with fault code BUS, FAULT_ADDR the address of the access and BUS_FAULT set; the
port is free and every queue is empty; each link's monitor is stopped in its state with its hold-off stopped, and its transmit queue keeps
the frame being sent alone; every other block keeps its state. Whether a faulted write landed is free (log entry 5): no byte outside its
word changes. With no access on the bus nothing happens (log entry 6). -/
def Obligations.BusFaultStopsEveryBlock : Prop :=
  ∀ s : State,
    (s.master.port = none → exec .busErrorResponse s = .next s ∧ exec .busTimeout s = .next s) ∧
    (∀ r x, s.master.port = some (r, x) → ∃ t, exec .busErrorResponse s = .next t ∧ exec .busTimeout s = .next t ∧
      t.hasEvent .busFault = true ∧
      t.regs = { s.regs with runState := .faulted, events := t.regs.events, faultCode := .bus, faultAddr := x.addr } ∧
      t.master.port = none ∧ t.master.timer = none ∧ (∀ q, t.queue q = []) ∧
      t = { s with regs := t.regs, master := t.master, links := t.links, memory := t.memory, freeCount := t.freeCount } ∧
      (∀ k, t.link k =
        { s.link k with started := false, holdOff := none, txQueue := (s.link k).txQueue.take 1 }) ∧
      (∀ a, s.outsidePort a → readByte t.memory a = readByte s.memory a))

/-- R178: when the port is free, the Memory Master issues the oldest access of the first requester, in the cyclic order after the one it
served last, whose queue is not empty, and sets the bus timeout timer to 1 ms; the other queues keep their accesses. Nothing is issued
while the port is taken, in FAULTED, or while the part is held. -/
def Obligations.MasterServesRequestersInTurn : Prop :=
  ∀ s : State,
    (s.held = true ∨ s.run = .faulted ∨ s.master.port.isSome = true → issue s = s) ∧
    (s.held = false → s.run ≠ .faulted → s.master.port = none →
      ((∀ r, s.queue r = []) → issue s = s) ∧
      (∀ before r after x rest, turnOrder s.master.served = before ++ r :: after → (∀ q ∈ before, s.queue q = []) →
        s.queue r = x :: rest →
        (issue s).master.port = some (r, x) ∧ (issue s).master.served = r ∧ (issue s).master.timer = some 1 ∧
        (issue s).queue r = rest ∧ (∀ q, q ≠ r → (issue s).queue q = s.queue q) ∧
        issue s = { s with master := (issue s).master })) ∧
    (∀ r, (turnOrder r).Perm requesterOrder ∧ (turnOrder r).getLast? = some r)

/-! ### The clock and the windows (02 R24 to R45) -/

/-- R25 R24: a NET_TIME write sets NET_TIME and restarts the sub-count in every run state, and a second event, which SECOND_EVENT is
whatever the sub-count shows (log entry 11), advances NET_TIME by one modulo 2^32; no register, parameter or byte of memory changes. In the
run states that evaluate windows, which are RUNNING and LOADING from the end of the window step on (R26 R45, log entry 10), each window is
then evaluated against the new time; in the others the event changes the clock alone, so no timer is affected. -/
def Obligations.TimeEventsSetTheClock : Prop :=
  ∀ (value : Word) (s : State), s.held = false →
    (s.regs.select = 7 → ∃ u, exec (.netTimeWrite value) s = .next (settle u) ∧
      u = evalWindows { s with clock := { netTime := value, subCount := 0 } } ∧
      (settle u).hostSide = { s.hostSide with clock := { netTime := value, subCount := 0 } } ∧
      (∀ a, readByte (settle u).memory a = readByte s.memory a) ∧
      (s.evaluates = false → u = { s with clock := { netTime := value, subCount := 0 } })) ∧
    (∃ u, exec .secondEvent s = .next (settle u) ∧
      u = evalWindows { s with clock := { netTime := s.clock.netTime + 1, subCount := 0 } } ∧
      (settle u).hostSide = { s.hostSide with clock := { netTime := s.clock.netTime + 1, subCount := 0 } } ∧
      (∀ a, readByte (settle u).memory a = readByte s.memory a) ∧
      (s.evaluates = false → u = { s with clock := { netTime := s.clock.netTime + 1, subCount := 0 } }))

/-- R27 R28 R29 R26 R30 R38 R40 R42: the evaluation of one window against now, by its phase and times: PENDING opens at its open time and
passes straight to SETTLING at its close time; OPEN settles at its close time; SETTLING expires; every other window stays. A window that
enters SETTLING expires at now + settle, saturated at 4294967295, and is QUEUED at the same evaluation only where that is already reached. A
PENDING window that opens has its spans fenced, each count rising by one (SettleExpiryLowersAndOpeningRaises says by what raise); a SETTLING
window that becomes QUEUED lowers its fence and joins the end of the Slot Waiting List; each change of phase marks the phase word due, in
the model's own list (log entry 8). An evaluation of all windows, in the run states that evaluate (log entry 10), takes the windows the last
load counted in ascending index. It moves no window back along the order of its phases, changes neither its times nor its spans, and leaves
windows at the window count and above as they stand. -/
def Obligations.EvaluationMovesAWindowByTime : Prop :=
  (∀ (w : Fin 64) (s : State),
    let x := s.window w
    let now := s.clock.netTime
    let y := (evalWindow w s).window w
    let settled := fun (t : Word) => if t ≤ now then Phase.queued else Phase.settling
    let due := timePlus now x.settle
    (x.phase = .pending → x.closeTime ≤ now → y = { x with phase := settled due, expiry := due }) ∧
    (x.phase = .pending → now < x.closeTime → x.openTime ≤ now → y = { x with phase := .opened }) ∧
    (x.phase = .pending → now < x.closeTime → now < x.openTime → evalWindow w s = s) ∧
    (x.phase = .opened → x.closeTime ≤ now → y = { x with phase := settled due, expiry := due }) ∧
    (x.phase = .opened → now < x.closeTime → evalWindow w s = s) ∧
    (x.phase = .settling → y = { x with phase := settled x.expiry }) ∧
    (x.phase ≠ .pending → x.phase ≠ .opened → x.phase ≠ .settling → evalWindow w s = s) ∧
    (∀ v, v ≠ w → (evalWindow w s).window v = s.window v)) ∧
  (∀ (s : State) (w : Fin 64),
    (s.window w).phase.code ≤ ((evalWindows s).window w).phase.code ∧
    ((evalWindows s).window w).openTime = (s.window w).openTime ∧
    ((evalWindows s).window w).closeTime = (s.window w).closeTime ∧
    ((evalWindows s).window w).spans = (s.window w).spans ∧
    (w.val ≥ s.params.windowCount → (evalWindows s).window w = s.window w)) ∧
  (∀ (w : Fin 64) (f : Window → Window) (s : State),
    let t := changeWindow w f s
    t = { s with sched := { s.sched with windows := t.sched.windows, phaseDue := t.sched.phaseDue } } ∧ t.window w = f (s.window w) ∧
    (∀ v, v ≠ w → t.window v = s.window v) ∧ w ∈ t.sched.phaseDue ∧
    (∀ v, v ≠ w → (v ∈ t.sched.phaseDue ↔ v ∈ s.sched.phaseDue))) ∧
  (∀ (w : Fin 64) (s : State),
    let x := s.window w
    let now := s.clock.netTime
    let settling := changeWindow w (fun y => { y with phase := .settling, expiry := timePlus now x.settle }) s
    let t := settleCheck w s
    (x.phase = .opened → x.closeTime ≤ now → evalWindow w s = settleCheck w settling) ∧
    (x.phase = .settling → evalWindow w s = t) ∧
    (x.phase = .pending → now < x.closeTime → x.openTime ≤ now → x.spans.Nodup → w ∈ (evalWindow w s).sched.phaseDue ∧
      ∀ v, (evalWindow w s).fenceCount v = s.fenceCount v + (if v ∈ x.spans then 1 else 0)) ∧
    (x.phase = .pending → x.closeTime ≤ now → now < timePlus now x.settle → x.spans.Nodup → w ∈ (evalWindow w s).sched.phaseDue ∧
      ∀ v, (evalWindow w s).fenceCount v = s.fenceCount v + (if v ∈ x.spans then 1 else 0)) ∧
    (¬ (x.phase = .settling ∧ x.expiry ≤ now) → t = s) ∧
    (x.phase = .settling → x.expiry ≤ now →
      t = { s with sched := t.sched } ∧ t.window w = { x with phase := .queued } ∧ (∀ v, v ≠ w → t.window v = s.window v) ∧
      t.sched.slotWait = s.sched.slotWait ++ [w] ∧ t.sched.refresh = s.sched.refresh ∧ w ∈ t.sched.phaseDue ∧
      (∀ v, v ≠ w → (v ∈ t.sched.phaseDue ↔ v ∈ s.sched.phaseDue)) ∧
      (x.spans.Nodup → ∀ v, t.fenceCount v = s.fenceCount v - (if v ∈ x.spans then 1 else 0)))) ∧
  (∀ (s : State), (s.evaluates = false → evalWindows s = s) ∧
    (s.evaluates = true → evalWindows s =
      ((List.finRange 64).filter (fun w => decide (w.val < s.params.windowCount))).foldl (fun t w => evalWindow w t) s))

/-- R28 R27 R38 R40 R41 R42: at a settle expiry, in the run states that evaluate windows (log entry 10), the SETTLING window becomes QUEUED,
joins the end of the Slot Waiting List, and the count of each span of its list falls by one, every other count standing; its phase word is
marked due, in the model's own list (log entry 8). Nothing else changes at the event. A raise adds one to the count of each span of a list
without repeats and to no other, changes no window, and withdraws, in ascending slot, each entry in QUEUED, WAITING or BACKOFF that holds a
span the raise newly fenced, which is then FREE (EntriesLeaveAndAreCounted says the rest); every other entry stands. The evaluation of a
PENDING window that reaches its open time is such a raise of its spans, the window OPEN; where its close time is reached too, the window is
SETTLING, its spans raised all the same, and its settle expiry then tested. -/
def Obligations.SettleExpiryLowersAndOpeningRaises : Prop :=
  (∀ (w : Fin 64) (s : State), s.evaluates = true → (s.window w).phase = .settling → (s.window w).expiry ≤ s.clock.netTime →
    (s.window w).spans.Nodup →
    ∃ u, exec (.settleExpiry w) s = .next (settle u) ∧ u = { s with sched := u.sched } ∧
      u.window w = { s.window w with phase := .queued } ∧ (∀ v, v ≠ w → u.window v = s.window v) ∧
      u.sched.slotWait = s.sched.slotWait ++ [w] ∧ w ∈ u.sched.phaseDue ∧
      (∀ x, u.fenceCount x = s.fenceCount x - (if x ∈ (s.window w).spans then 1 else 0)) ∧
      (settle u).hostSide = s.hostSide ∧ (∀ a, readByte (settle u).memory a = readByte s.memory a)) ∧
  (∀ (spans : List Nat) (s : State), spans.Nodup →
    (∀ x, (raiseFence spans s).fenceCount x = s.fenceCount x + (if x ∈ spans then 1 else 0)) ∧
    (raiseFence spans s).sched.windows = s.sched.windows ∧
    (∀ i x, x ∈ spans → s.fenceCount x = 0 → x ∈ ((raiseFence spans s).entry i).spans →
      ((raiseFence spans s).entry i).state.isOpen = false) ∧
    (∀ i, (s.entry i).state.isOpen = false → (raiseFence spans s).entry i = s.entry i) ∧
    (raiseFence spans s).sched = { s.sched with fence := (raiseFence spans s).sched.fence } ∧
    (let hit := fun (i : Fin 64) => (s.entry i).state.isOpen = true ∧ ∃ x ∈ (s.entry i).spans, x ∈ spans ∧ s.fenceCount x = 0
     (∀ i, hit i → (raiseFence spans s).entry i = { generation := (s.entry i).generation }) ∧
     (∀ i, ¬ hit i → (raiseFence spans s).entry i = s.entry i) ∧
     (∀ l : List (Fin 64), l.Pairwise (fun i j => i < j) → (∀ i, i ∈ l ↔ hit i) →
       raiseFence spans s = l.foldl (fun t i => withdraw i t) (setFence (raiseFence spans s).sched.fence s)))) ∧
  (∀ (w : Fin 64) (s : State), (s.window w).phase = .pending →
    let x := s.window w
    let now := s.clock.netTime
    (now < x.closeTime → x.openTime ≤ now →
      evalWindow w s = raiseFence x.spans (changeWindow w (fun y => { y with phase := .opened }) s)) ∧
    (x.closeTime ≤ now → evalWindow w s = settleCheck w (raiseFence x.spans
      (changeWindow w (fun y => { y with phase := .settling, expiry := timePlus now x.settle }) s))))

/-- R33: the refresh of an IDLE window. ARMED copies the host fields as R31 states: with close > open the window becomes PENDING with
campaign id 0 and finish reason NONE, otherwise FINISHED with finish reason INVALID and campaign id 0; DISARMED and CANCEL leave it IDLE and
every copied field as it stands, the arm word among them (the model's choice: log entry 26). Nothing but this window and the phase word that
falls due changes: no fence, no campaign, no access. The evaluation that ends the refresh follows. -/
def Obligations.IdleRefreshArmsOrRejects : Prop :=
  ∀ (w : Fin 64) (got : List Word) (s : State), (s.window w).phase = .idle →
    let x := copyWindow s.params.defaultSettle got (s.window w)
    let t := refreshIdle w got s
    applyRefresh { window := w, kind := .full, got := got } s = evalWindow w t ∧
    t = { s with sched := { s.sched with windows := t.sched.windows, phaseDue := t.sched.phaseDue } } ∧
    (∀ v, v ≠ w → t.window v = s.window v) ∧ (∀ v, v ≠ w → (v ∈ t.sched.phaseDue ↔ v ∈ s.sched.phaseDue)) ∧
    (armOfWord (got.getD 0 0) = .armed → x.openTime < x.closeTime →
      t.window w = { x with phase := .pending, campaign := 0, reason := .none } ∧ w ∈ t.sched.phaseDue) ∧
    (armOfWord (got.getD 0 0) = .armed → x.closeTime ≤ x.openTime →
      t.window w = { x with phase := .finished, campaign := 0, reason := .invalid } ∧ w ∈ t.sched.phaseDue) ∧
    (armOfWord (got.getD 0 0) ≠ .armed → t = s)

/-- R34: the refresh of a PENDING window. CANCEL makes it FINISHED with finish reason CANCELLED, DISARMED makes it IDLE, and either is taken
into the copied arm word while every other copied field stands (the model's choice: log entry 26); ARMED replaces every copied field with
the values just read, and close ≤ open makes it FINISHED with finish reason INVALID, otherwise it stays PENDING. No fence is raised or
lowered, nothing but this window and its phase word changes, and the closing evaluation acts on the new times. -/
def Obligations.PendingRefreshCancelsDisarmsOrMoves : Prop :=
  ∀ (w : Fin 64) (got : List Word) (s : State), (s.window w).phase = .pending →
    let x := copyWindow s.params.defaultSettle got (s.window w)
    let t := refreshPending w got s
    applyRefresh { window := w, kind := .full, got := got } s = evalWindow w t ∧
    t = { s with sched := { s.sched with windows := t.sched.windows, phaseDue := t.sched.phaseDue } } ∧
    (∀ v, v ≠ w → t.window v = s.window v) ∧ (∀ v, v ≠ w → (v ∈ t.sched.phaseDue ↔ v ∈ s.sched.phaseDue)) ∧
    (armOfWord (got.getD 0 0) = .cancel →
      t.window w = { s.window w with arm := .cancel, phase := .finished, reason := .cancelled } ∧ w ∈ t.sched.phaseDue) ∧
    (armOfWord (got.getD 0 0) = .disarmed →
      t.window w = { s.window w with arm := .disarmed, phase := .idle } ∧ w ∈ t.sched.phaseDue) ∧
    (armOfWord (got.getD 0 0) = .armed → x.closeTime ≤ x.openTime →
      t.window w = { x with phase := .finished, reason := .invalid } ∧ w ∈ t.sched.phaseDue) ∧
    (armOfWord (got.getD 0 0) = .armed → x.openTime < x.closeTime →
      t.window w = x ∧ x.phase = .pending ∧ t.sched.phaseDue = s.sched.phaseDue)

/-- R35 R36 R32: the refresh of an OPEN window. ARMED takes the close time read: after now the window stays OPEN and nothing else changes;
at or before now it closes at the evaluation that ends the refresh. CANCEL closes it at the refresh, taken into the copied arm word, the
copied close time standing (log entry 26). A window so closed is SETTLING with expiry now + settle, QUEUED at once only where that is
already reached (EvaluationMovesAWindowByTime says what settleCheck does then), and its phase word falls due; its spans, open time, settle
and class stand. DISARMED is ignored: the window is evaluated as it stands, its copied arm word too (log entry 26). The refresh of a
SETTLING, QUEUED or VERIFYING window changes nothing beyond that evaluation. At FINISHED, DISARMED makes the window IDLE with campaign id 0
and finish reason NONE and its phase word falls due; ARMED and CANCEL change nothing, the copied arm word neither (log entry 26). No other
window changes, and no fence falls while the window is not QUEUED. -/
def Obligations.OpenAndFinishedRefreshes : Prop :=
  ∀ (r : Refresh) (s : State),
    let w := r.window
    let x := s.window w
    let arm := armOfWord (r.got.getD 0 0)
    let now := s.clock.netTime
    let close := r.got.getD (if r.kind = .full then 2 else 1) 0
    let due := timePlus now x.settle
    let closed := if due ≤ now then Phase.queued else Phase.settling
    let t := applyRefresh r s
    (x.phase = .opened → r.kind ≠ .armOnly →
      (∀ v, v ≠ w → t.window v = s.window v) ∧ ((t.window w).phase ≠ .queued → t.sched.fence = s.sched.fence) ∧
      (arm = .armed → now < close →
        t = { s with sched := { s.sched with windows := t.sched.windows } } ∧
        t.window w = { x with arm := .armed, closeTime := close }) ∧
      (arm = .armed → close ≤ now →
        t.window w = { x with arm := .armed, closeTime := close, phase := closed, expiry := due } ∧ w ∈ t.sched.phaseDue ∧
        t = settleCheck w (changeWindow w (fun _ => { x with arm := .armed, closeTime := close, phase := .settling, expiry := due }) s)) ∧
      (arm = .cancel → t.window w = { x with arm := .cancel, phase := closed, expiry := due } ∧ w ∈ t.sched.phaseDue ∧
        t = settleCheck w (changeWindow w (fun _ => { x with arm := .cancel, phase := .settling, expiry := due }) s)) ∧
      (arm = .disarmed → t = evalWindow w s)) ∧
    (x.phase = .settling ∨ x.phase = .queued ∨ x.phase = .verifying → t = evalWindow w s) ∧
    (x.phase = .finished →
      (arm = .disarmed →
        t = { s with sched := { s.sched with windows := t.sched.windows, phaseDue := t.sched.phaseDue } } ∧
        t.window w = { x with arm := .disarmed, phase := .idle, campaign := 0, reason := .none } ∧ w ∈ t.sched.phaseDue ∧
        (∀ v, v ≠ w → t.window v = s.window v)) ∧
      (arm ≠ .disarmed → t = s))

/-- R32: the last word of a window's refresh returns (log entry 3): the values read are applied by the phase the window holds now and the
window is evaluated; the sweep then reads the next window whose phase calls for it, or, with none left, the request scan begins with the
control word of the slot at the next request index. No byte of memory changes. -/
def Obligations.RefreshEndsAndTheSweepGoesOn : Prop :=
  ∀ (data : Word) (s : State) (r : Refresh), s.readsWith .refresh → s.sched.refresh = some r →
    r.got.length + 1 = (refreshOffsets r.kind).length →
    let after := applyRefresh { r with got := r.got ++ [data] } { s.portFreed with sched := { s.sched with refresh := none } }
    ∃ u, exec (.windowRefreshDone data) s = .next (settle u) ∧
      u = { s.portFreed with
        sched := u.sched, probes := u.probes, ctrl := u.ctrl, custody := u.custody, master := u.master, reader := u.reader } ∧
      u.sched.windows = after.sched.windows ∧ u.sched.fence = after.sched.fence ∧ u.probes = after.probes ∧
      (settle u).hostSide = s.hostSide ∧ (∀ a, readByte (settle u).memory a = readByte s.memory a) ∧
      (∀ v k, nextRefresh (modReader (fun x => { x with window := r.window.val + 1 }) after) = some (v, k) →
        u.sched.refresh = some { window := v, kind := k } ∧ u.reader.window = v.val) ∧
      (nextRefresh (modReader (fun x => { x with window := r.window.val + 1 }) after) = none →
        u.sched.refresh = none ∧ u.reader.sweep = .requests ∧ u.reader.stage = .control ∧ u.reader.processed = 0 ∧
        u.queue .request =
          after.queue .request ++ [⟨addrOf s.params.requestList (48 * s.reader.nextIndex + 0), none, .reqControl⟩])

/-- R45 R31: what the load makes of a window entry: the first row of the table that applies. When the last word of a window entry returns in
the load's window step (log entry 3), the window takes the copy with its phase by the table, its spans are fenced where it comes back OPEN
or SETTLING, it joins the Slot Waiting List where it comes back QUEUED; its phase word falls due where phase, campaign id or finish reason
differ from the word's, its codes compared as they stand (log entry 12), and always for OPEN and SETTLING. The step goes on with the next
window, or the custody step begins with circuit 0. No byte of memory changes. -/
def Obligations.LoadWindowStepTakesTheEntry : Prop :=
  (∀ (dflt : Nat) (now : Word) (ws : List Word),
    let x := copyWindow dflt ws {}
    let y := loadedWindow dflt now ws
    let prev := phaseOfCode (bits (ws.getD 20 0) 2 0)
    (x.arm ≠ .armed → y = { x with phase := .idle }) ∧
    (x.arm = .armed → x.closeTime ≤ x.openTime → y = { x with phase := .finished, reason := .invalid }) ∧
    (x.arm = .armed → x.openTime < x.closeTime → now < x.openTime → y = { x with phase := .pending }) ∧
    (x.arm = .armed → x.openTime ≤ now → now < x.closeTime → y = { x with phase := .opened }) ∧
    (x.arm = .armed → x.openTime < x.closeTime → x.closeTime ≤ now → prev = .finished →
      y = { x with phase := .finished, reason := reasonOfCode (bits (ws.getD 20 0) 6 4), campaign := bits (ws.getD 20 0) 15 8 }) ∧
    (x.arm = .armed → x.openTime < x.closeTime → x.closeTime ≤ now → (prev = .queued ∨ prev = .verifying) →
      y = { x with phase := .queued, campaign := 0 }) ∧
    (x.arm = .armed → x.openTime < x.closeTime → x.closeTime ≤ now →
      prev ≠ .finished → prev ≠ .queued → prev ≠ .verifying →
      y = { x with phase := .settling, expiry := timePlus now x.settle })) ∧
  (∀ (data : Word) (s : State), s.run = .loading → s.loader.index < 64 → s.readsWith .loadWindow → s.loader.got.length = 21 →
    let ws := s.loader.got ++ [data]
    let w := Fin.ofNat 64 s.loader.index
    let y := loadedWindow s.params.defaultSettle s.clock.netTime ws
    ∃ u, exec (.loadWindowReadDone data) s = .next (settle u) ∧ (settle u).run = .loading ∧
      u = { s.portFreed with
        sched := u.sched, loader := u.loader, master := u.master, custody := u.custody, probes := u.probes, ctrl := u.ctrl } ∧
      (settle u).hostSide = s.hostSide ∧ (∀ a, readByte (settle u).memory a = readByte s.memory a) ∧
      u.window w = y ∧ (∀ v, v ≠ w → u.window v = s.window v) ∧
      u.sched.slotWait = s.sched.slotWait ++ (if y.phase = .queued then [w] else []) ∧
      (∀ x, u.fenceCount x =
        s.fenceCount x + (if (y.phase = .opened ∨ y.phase = .settling) ∧ x ∈ y.spans then 1 else 0)) ∧
      (w ∈ u.sched.phaseDue ↔ w ∈ s.sched.phaseDue ∨ y.phase = .opened ∨ y.phase = .settling ∨
        y.phase.code ≠ bits (ws.getD 20 0) 2 0 ∨ y.reason.code ≠ bits (ws.getD 20 0) 6 4 ∨
        y.campaign ≠ bits (ws.getD 20 0) 15 8) ∧
      (s.loader.index + 1 < s.params.windowCount → u.loader.step = s.loader.step ∧ u.loader.index = s.loader.index + 1) ∧
      (s.params.windowCount ≤ s.loader.index + 1 → u.loader.step = .custody ∧ u.loader.index = 0))

/-- R37 R183: the phase words that an event leaves due, in the model's own list (log entry 8), are handed over at its end and the list is
then empty: for each such window in turn NET_TIME at 0x5C, then the word at 0x58 with the phase in bits 2..0, the finish reason in bits 6..4
and the campaign id in bits 15..8; nothing else is handed over with them, and nothing else changes. A change of a window's phase, campaign
id or finish reason marks its word due. When the word at 0x58 has reached memory, WINDOW_CHANGE is set; the response changes nothing else
but the port and the word written. -/
def Obligations.PhaseWordWrittenSetsWindowChange : Prop :=
  (∀ s : State,
    let words := fun (w : Fin 64) =>
      [(⟨addrOf s.params.windowList (96 * w.val + 0x5C), some s.clock.netTime, .plain⟩ : Access),
        ⟨addrOf s.params.windowList (96 * w.val + 0x58), some (phaseWord (s.window w)), .phaseWord⟩]
    let t := flushPhaseWords s
    t = { s with sched := { s.sched with phaseDue := [] }, master := t.master } ∧
    t.queue .window = s.queue .window ++ s.sched.phaseDue.flatMap words ∧ (∀ r, r ≠ .window → t.queue r = s.queue r) ∧
    t.master.port = s.master.port ∧ (settle s).sched.phaseDue = []) ∧
  (∀ x : Window, x.reason.code < 8 → x.campaign < 256 →
    (phaseWord x).toNat = x.phase.code + 16 * x.reason.code + 256 * x.campaign) ∧
  (∀ (w : Fin 64) (f : Window → Window) (s : State), (changeWindow w f s).window w = f (s.window w) ∧
    ∀ v, v ∈ (changeWindow w f s).sched.phaseDue ↔ v = w ∨ v ∈ s.sched.phaseDue) ∧
  (∀ (data : Word) (s : State) (r : Requester) (x : Access), s.master.port = some (r, x) → x.tag = .phaseWord →
    ∃ u, exec (.phaseWordWritten data) s = .next (settle u) ∧ u.hasEvent .windowChange = true ∧
      u = { endAccess x s with regs := { s.regs with events := u.regs.events } } ∧
      (∀ e, e ≠ .windowChange → u.hasEvent e = s.hasEvent e) ∧
      (∀ a, s.outsidePort a → readByte (settle u).memory a = readByte s.memory a))

/-! ### Links and frames (05 R92 to R107, 11 R185) -/

/-- R94 R95 R97 R98 R100 R106 R107 R176: the signal and hold-off events of a link whose monitor acts. Signal lost empties the transmit queue
and takes UP to FAILING with a full hold-off and RESTORING to DOWN; signal present takes FAILING to UP and DOWN to RESTORING with a full
hold-off; in every other state only the signal changes. None of these sets LINK_CHANGE. The expiry of a running hold-off (log entry 11)
takes FAILING to DOWN and RESTORING to UP and sets LINK_CHANGE; in RUNNING the Probe Table acts on it. Each change of state hands the link's
state field over in LOADING and RUNNING, and no other access. No other link, no register and no byte of memory changes. The signal events of
a link whose monitor does not act (a disabled link, a link no load has started, a link frozen by a bus fault, and in a later load before its
link step: log entry 19) change its signal alone, but that a lost signal empties the transmit queue of a link that a load has started and no
fault has stopped. -/
def Obligations.LinkMonitorFollowsItsSignal : Prop :=
  ∀ (k : Fin 4) (s : State), s.held = false →
    let full := some ((s.linkParams k).holdOff * 10)
    let report := fun (st : LinkState) => (if s.run = .loading ∨ s.run = .running
      then [⟨addrOf s.params.controlBlock (0x110 + 24 * k.val), some (field st.code 2 0), .plain⟩] else [] : List Access)
    (monitorActs s k = true →
      ((s.link k).signal = true → ∃ u, exec (.signalLost k) s = .next (settle u) ∧
        u = { s with links := u.links, master := u.master } ∧ (∀ j, j ≠ k → u.link j = s.link j) ∧
        u.link k = { s.link k with
          signal := false, txQueue := []
          state := if (s.link k).state = .up then .failing else if (s.link k).state = .restoring then .down else (s.link k).state
          holdOff := if (s.link k).state = .up then full else if (s.link k).state = .restoring then none else (s.link k).holdOff } ∧
        u.queue (.link k) = s.queue (.link k) ++ (if (u.link k).state = (s.link k).state then [] else report (u.link k).state) ∧
        (∀ r, r ≠ .link k → u.queue r = s.queue r) ∧
        (settle u).hostSide = s.hostSide ∧ (∀ a, readByte (settle u).memory a = readByte s.memory a)) ∧
      ((s.link k).signal = false → ∃ u, exec (.signalPresent k) s = .next (settle u) ∧
        u = { s with links := u.links, master := u.master } ∧ (∀ j, j ≠ k → u.link j = s.link j) ∧
        u.link k = { s.link k with
          signal := true
          state := if (s.link k).state = .failing then .up else if (s.link k).state = .down then .restoring else (s.link k).state
          holdOff := if (s.link k).state = .failing then none else if (s.link k).state = .down then full else (s.link k).holdOff } ∧
        u.queue (.link k) = s.queue (.link k) ++ (if (u.link k).state = (s.link k).state then [] else report (u.link k).state) ∧
        (∀ r, r ≠ .link k → u.queue r = s.queue r) ∧
        (settle u).hostSide = s.hostSide ∧ (∀ a, readByte (settle u).memory a = readByte s.memory a)) ∧
      (∀ st : LinkState, (s.link k).state = st → (st = .failing ∨ st = .restoring) → (s.link k).holdOff.isSome = true →
        let after := if st = .failing then LinkState.down else .up
        let moved := modLink k (fun l => { l with state := after, holdOff := none }) s
        ∃ u, exec (.holdOffExpiry k) s = .next (settle u) ∧ u.hasEvent .linkChange = true ∧
          (∀ e, e ≠ .linkChange → u.hasEvent e = s.hasEvent e) ∧ u.regs = { s.regs with events := u.regs.events } ∧
          u = { s with links := moved.links, master := u.master, regs := u.regs, probes := u.probes } ∧
          u.probes = (if s.run ≠ .running then s else if st = .failing then linkWentDown k moved else linkBecameUp k moved).probes ∧
          u.queue (.link k) = s.queue (.link k) ++ report after ∧ (∀ r, r ≠ .link k → u.queue r = s.queue r) ∧
          (settle u).hostSide = s.hostSide ∧ (∀ a, readByte (settle u).memory a = readByte s.memory a))) ∧
    (monitorActs s k = false →
      ((s.link k).signal = true → exec (.signalLost k) s =
        .next (settle (modLink k (fun l => { l with signal := false, txQueue := if l.started then [] else l.txQueue }) s))) ∧
      ((s.link k).signal = false → exec (.signalPresent k) s = .next (settle (modLink k (fun l => { l with signal := true }) s))))

/-- R99 R101 R102 R103 R104: the frame whose last byte has left leaves the head of its link's transmit queue; the frames behind it keep
their order and nothing else changes; with no frame in the queue nothing changes (log entry 6). A frame that completes in RUNNING on an UP
link fails a check and is counted rejected, or passes and joins the FIFO's tail, counted accepted, while the FIFO holds fewer than 16 items,
or is counted dropped. One counter of the link rises by one (saturating), the FIFO changes only by an accepted item, and nothing else
changes at the event. In every other case the frame changes nothing. -/
def Obligations.FramesSentAndReceived : Prop :=
  (∀ (k : Fin 4) (s : State), ∃ t, exec (.transmitFrameDone k) s = .next t ∧
    (∀ frame rest, (s.link k).txQueue = frame :: rest → t.link k = { s.link k with txQueue := rest }) ∧
    ((s.link k).txQueue = [] → t.link k = s.link k) ∧ (∀ j, j ≠ k → t.link j = s.link j) ∧ t = { s with links := t.links }) ∧
  (∀ (k : Fin 4) (frame : List Byte) (s : State),
    (s.run ≠ .running ∨ (s.link k).state ≠ .up → exec (.frameReceived k frame) s = .next s) ∧
    (s.run = .running → (s.link k).state = .up → ∃ u, exec (.frameReceived k frame) s = .next (settle u) ∧
      u = { s with links := u.links, fifo := u.fifo } ∧ (∀ j, j ≠ k → u.link j = s.link j) ∧
      (settle u).hostSide = s.hostSide ∧ (∀ a, readByte (settle u).memory a = readByte s.memory a) ∧
      let c := (s.link k).counters
      (echoOk frame = false → u.fifo = s.fifo ∧
        u.link k = { s.link k with counters := { c with rejected := min (c.rejected + 1) 4294967295 } }) ∧
      (echoOk frame = true → s.fifo.length < 16 → u.fifo = s.fifo ++ [echoItem k frame] ∧
        u.link k = { s.link k with counters := { c with accepted := min (c.accepted + 1) 4294967295 } }) ∧
      (echoOk frame = true → 16 ≤ s.fifo.length → u.fifo = s.fifo ∧
        u.link k = { s.link k with counters := { c with dropped := min (c.dropped + 1) 4294967295 } })))

/-- R102 R103 R99 R185: what the five checks admit: a frame of type ECHO with at most 40 stamps, none only with BREAK, of the length of its
stamp count, and with the ones'-complement sum 0xFFFF. An accepted echo's item has as many stamps as the frame counts, each power unknown or
in −5000..2500. Every PROBE frame a launch commits is 14 bytes long, is of type PROBE, carries own node, tag, head-end node and trail label
in their places, and passes the frame check: its ones'-complement sum is 0xFFFF. -/
def Obligations.FramesPassTheFrameCheck : Prop :=
  (∀ (k : Fin 4) (frame : List Byte),
    (echoOk frame = true ↔ frameSum frame = 0xFFFF ∧ frameByte frame 0 = 2 ∧ frameByte frame 12 ≤ 40 ∧
      (frameByte frame 12 = 0 → frameByte frame 1 % 2 = 1) ∧ frame.length = 16 + 10 * frameByte frame 12) ∧
    (echoItem k frame).stamps.length = frameByte frame 12 ∧ (echoItem k frame).link = k ∧
    (∀ o ∈ (echoItem k frame).stamps,
      (o.rx = -32768 ∨ (-5000 ≤ o.rx ∧ o.rx ≤ 2500)) ∧ (o.tx = -32768 ∨ (-5000 ≤ o.tx ∧ o.tx ≤ 2500)))) ∧
  (∀ own tag head trail : Nat, own < 65536 → tag < 65536 → head < 65536 → trail < 16777216 →
    let f := probeFrame own tag head trail
    f.length = 14 ∧ frameByte f 0 = 1 ∧ frameHalf f 2 = own ∧ frameHalf f 4 = tag ∧ frameHalf f 6 = head ∧
    frameByte f 8 * 65536 + frameByte f 9 * 256 + frameByte f 10 = trail ∧ frameSum f = 0xFFFF)

/-! ### Probes and campaigns (04 R70 to R91, 03 R46 to R69) -/

/-- R79 R80 R82: a probe timer runs out in RUNNING (the command is that event: log entry 11). A WAITING entry with attempts below 1 +
retries becomes BACKOFF for backoff base × 2^min(attempts − 1, 3), in 10 ms units; at 1 + retries it is CONCLUDED with NO_ECHO at the tail
of the Outcome List. A BACKOFF entry chooses its link again: it is QUEUED at the tail of its class's queue on the chosen link with its
attempts kept, or CONCLUDED with NO_ECHO where BIND leaves no link. No other entry, no register and no byte of memory changes. -/
def Obligations.ProbeTimersRunOut : Prop :=
  ∀ (i : Fin 64) (s : State), s.run = .running → (s.entry i).timer.isSome = true →
    let e := s.entry i
    let concluded := { e with state := .concluded, timer := none, outcome := some .noEcho }
    (e.state = .waiting → ∃ u, exec (.probeTimeout i) s = .next (settle u) ∧
      u = { s with probes := u.probes } ∧ (∀ j, j ≠ i → u.entry j = s.entry j) ∧ u.probes.scheds = s.probes.scheds ∧
      (settle u).hostSide = s.hostSide ∧ (∀ a, readByte (settle u).memory a = readByte s.memory a) ∧
      (e.attempts < 1 + s.params.retries → u.probes.outcomes = s.probes.outcomes ∧
        u.entry i = { e with state := .backoff, timer := some (s.params.backoffBase * 10 * 2 ^ min (e.attempts - 1) 3) }) ∧
      (1 + s.params.retries ≤ e.attempts → u.probes.outcomes = s.probes.outcomes ++ [i] ∧ u.entry i = concluded)) ∧
    (e.state = .backoff → ∃ u, exec (.backoffExpiry i) s = .next (settle u) ∧
      u = { s with probes := u.probes } ∧ (∀ j, j ≠ i → u.entry j = s.entry j) ∧
      (settle u).hostSide = s.hostSide ∧ (∀ a, readByte (settle u).memory a = readByte s.memory a) ∧
      (∀ k, chooseLink s e.reach = some k → u.entry i = { e with state := .queued, link := k, timer := none } ∧
        u.probes.outcomes = s.probes.outcomes ∧ (∀ j, j ≠ k → u.launchSched j = s.launchSched j) ∧
        (u.launchSched k).queueOf e.cls = (s.launchSched k).queueOf e.cls ++ [i] ∧
        (u.launchSched k).queueOf e.cls.other = (s.launchSched k).queueOf e.cls.other) ∧
      (chooseLink s e.reach = none → u.entry i = concluded ∧ u.probes.outcomes = s.probes.outcomes ++ [i] ∧
        u.probes.scheds = s.probes.scheds))

/-- R74 R77 R87 R88: link choice by the linkage of the primary and the link states: the primary while it is UP; else under REROUTE the
alternate if it is valid and UP, else the primary; else under BIND none. The scheduler's pick between the two queues of a link: under STRICT
the urgent head whenever there is one, else the routine head, turn and count standing; under WEIGHTED the queue of the turn while it holds
entries and the count is below its weight, the count rising by one; otherwise the other queue where it holds entries, with its turn and
count 1, else the queue of the turn again with count 1. What is launched is the head of the queue picked, and nothing where both are empty.
A link that goes DOWN has its urgent entries and then its routine ones handled in queue order: a REROUTE entry moves to the tail of its
class's queue on the other link of its reach pair where that is UP (the valid alternate, or the primary) and else stays; a BIND entry is
CONCLUDED, NOT_TESTED with no attempt made and else NO_ECHO, at the tail of the Outcome List. When a link becomes UP, the REROUTE entries
queued on the links that are not UP, taken in ascending link number, urgent first, move to its tail where it is the other link of their
pair. -/
def Obligations.LinkAndQueueChoice : Prop :=
  (∀ (s : State) (r : Reach),
    let reroute := (s.linkParams r.primary).linkage = .reroute
    let up := fun k => (s.link k).state = .up
    (up r.primary → chooseLink s r = some r.primary) ∧
    (reroute → ¬ up r.primary → r.altValid = true → up r.alternate → chooseLink s r = some r.alternate) ∧
    (reroute → ¬ up r.primary → ¬ (r.altValid = true ∧ up r.alternate) → chooseLink s r = some r.primary) ∧
    (¬ reroute → ¬ up r.primary → chooseLink s r = none)) ∧
  (∀ (p : Params) (q : LaunchSched),
    let weight := if q.turn = .urgent then p.urgentWeight else p.routineWeight
    let mine := q.queueOf q.turn
    let other := q.queueOf q.turn.other
    (q.urgent = [] → q.routine = [] → pickQueue p q = none) ∧
    (p.weighted = false → q.urgent ≠ [] → pickQueue p q = some ⟨.urgent, q.turn, q.count⟩) ∧
    (p.weighted = false → q.urgent = [] → q.routine ≠ [] → pickQueue p q = some ⟨.routine, q.turn, q.count⟩) ∧
    (p.weighted = true → mine ≠ [] → q.count < weight → pickQueue p q = some ⟨q.turn, q.turn, q.count + 1⟩) ∧
    (p.weighted = true → mine = [] ∨ weight ≤ q.count → other ≠ [] →
      pickQueue p q = some ⟨q.turn.other, q.turn.other, 1⟩) ∧
    (p.weighted = true → mine ≠ [] → weight ≤ q.count → other = [] → pickQueue p q = some ⟨q.turn, q.turn, 1⟩)) ∧
  (∀ (k : Fin 4) (s : State),
    (pickQueue s.params (s.launchSched k) = none → launchPick k s = none) ∧
    (∀ p i rest, pickQueue s.params (s.launchSched k) = some p → (s.launchSched k).queueOf p.cls = i :: rest →
      launchPick k s = some (p, i))) ∧
  (let moves := fun (s t : State) (i : Fin 64) (j : Fin 4) =>
      let e := s.entry i
      t = { s with probes := t.probes } ∧ t.entry i = { e with state := .queued, link := j, timer := none } ∧
      (∀ d, d ≠ i → t.entry d = s.entry d) ∧ t.probes.outcomes = s.probes.outcomes ∧
      (t.launchSched j).queueOf e.cls = (s.launchSched j).queueOf e.cls ++ [i] ∧
      (t.launchSched e.link).queueOf e.cls = ((s.launchSched e.link).queueOf e.cls).erase i ∧
      (∀ l, (t.launchSched l).queueOf e.cls.other = (s.launchSched l).queueOf e.cls.other) ∧
      (∀ l, l ≠ j → l ≠ e.link → t.launchSched l = s.launchSched l)
    let both := fun (s : State) (k : Fin 4) => (s.launchSched k).urgent ++ (s.launchSched k).routine
    let up := fun (s : State) (k : Fin 4) => (s.link k).state = .up
    (∀ (k : Fin 4) (s : State) (i : Fin 64),
      let e := s.entry i
      let t := entryLinkDown k s i
      let reroute := (s.linkParams e.reach.primary).linkage = .reroute
      e.link = k → ¬ up s k →
      (reroute → k = e.reach.primary → e.reach.altValid = true → up s e.reach.alternate → moves s t i e.reach.alternate) ∧
      (reroute → k = e.reach.primary → ¬ (e.reach.altValid = true ∧ up s e.reach.alternate) → t = s) ∧
      (reroute → k ≠ e.reach.primary → up s e.reach.primary → moves s t i e.reach.primary) ∧
      (reroute → k ≠ e.reach.primary → ¬ up s e.reach.primary → t = s) ∧
      (¬ reroute → t = { s with probes := t.probes } ∧ t.probes.outcomes = s.probes.outcomes ++ [i] ∧
        t.entry i = { e with
          state := .concluded, timer := none, outcome := some (if e.attempts = 0 then .notTested else .noEcho) } ∧
        (∀ d, d ≠ i → t.entry d = s.entry d) ∧ (∀ l, l ≠ k → t.launchSched l = s.launchSched l) ∧
        (t.launchSched k).queueOf e.cls = ((s.launchSched k).queueOf e.cls).erase i ∧
        (t.launchSched k).queueOf e.cls.other = (s.launchSched k).queueOf e.cls.other)) ∧
    (∀ (k : Fin 4) (s : State), linkWentDown k s = (both s k).foldl (entryLinkDown k) s) ∧
    (∀ (j k : Fin 4) (s : State) (i : Fin 64),
      let e := s.entry i
      let fits := (s.linkParams e.reach.primary).linkage = .reroute ∧
        (e.reach.primary = k ∨ (e.reach.primary = j ∧ e.reach.altValid = true ∧ e.reach.alternate = k))
      e.link = j → j ≠ k →
      (fits → moves s (entryLinkUp j k s i) i k) ∧ (¬ fits → entryLinkUp j k s i = s)) ∧
    (∀ (j k : Fin 4) (s : State),
      (j = k ∨ up s j → moveFrom k s j = s) ∧
      (j ≠ k → ¬ up s j → moveFrom k s j = (both s j).foldl (entryLinkUp j k) s)) ∧
    (∀ (k : Fin 4) (s : State), linkBecameUp k s = moveFrom k (moveFrom k (moveFrom k (moveFrom k s 0) 1) 2) 3))

/-- R76 R77 R78 R71: the end of a launch gap in RUNNING (the command is that event: log entry 11): the gap counts as passed and nothing else
changes before the schedulers look again. A launch of the entry at the head of the queue picked: it becomes WAITING with one more attempt
and its timer at the probe timeout, its PROBE frame with its tag joins the transmit queue of at most 32 frames, probes sent rises by one
(saturating), the head leaves its queue, and a gap that is not 0 starts. No other entry, scheduler or link changes, and nothing outside the
Probe Table and the links. -/
def Obligations.LaunchCommitsTheProbe : Prop :=
  (∀ (k : Fin 4) (s : State), s.run = .running → (s.launchSched k).gap.isSome = true →
    ∃ u, exec (.launchGapExpiry k) s = .next (settle u) ∧ u = { s with probes := u.probes } ∧
      u.launchSched k = { s.launchSched k with gap := none } ∧ (∀ j, j ≠ k → u.launchSched j = s.launchSched j) ∧
      u.probes.entries = s.probes.entries ∧ u.probes.outcomes = s.probes.outcomes ∧
      (settle u).hostSide = s.hostSide ∧ (∀ a, readByte (settle u).memory a = readByte s.memory a)) ∧
  (∀ (k : Fin 4) (p : PickResult) (i : Fin 64) (s : State), launchPick k s = some (p, i) →
    let e := s.entry i
    let l := s.link k
    let t := launch k p i s
    t.entry i = { e with state := .waiting, attempts := e.attempts + 1, timer := some (s.params.probeTimeout * 10) } ∧
    (∀ j, j ≠ i → t.entry j = s.entry j) ∧
    t.link k = { l with
      txQueue := if l.txQueue.length < 32
        then l.txQueue ++ [probeFrame s.params.ownNode (e.generation * 64 + i.val) e.head e.trail] else l.txQueue
      counters := { l.counters with sent := min (l.counters.sent + 1) 4294967295 } } ∧
    (∀ j, j ≠ k → t.link j = s.link j ∧ t.launchSched j = s.launchSched j) ∧
    (s.launchSched k).queueOf p.cls = i :: (t.launchSched k).queueOf p.cls ∧
    (t.launchSched k).queueOf p.cls.other = (s.launchSched k).queueOf p.cls.other ∧
    (t.launchSched k).turn = p.turn ∧ (t.launchSched k).count = p.count ∧
    (t.launchSched k).gap = (if (s.linkParams k).gap = 0 then none else some (s.linkParams k).gap) ∧
    t = { s with probes := t.probes, links := t.links })

/-- R76 R43: no probe frame is committed to a transmitter for an entry that holds a fenced span: a launch decision that finds one leaves
every transmit queue as it stands, and no launch is made unless the part is RUNNING, the link is UP, its WAITING count is below its limit,
its gap has passed and the journal is not stalled. Where all of these hold and none of the head's spans is fenced, the launch is made (what
it does: LaunchCommitsTheProbe), and the link looks again; a head with a fenced span is withdrawn in its place, claims and the Comparator's
takes following. At every event the links are served in ascending number (log entry 20). -/
def Obligations.NoFrameForAFencedSpan : Prop :=
  ∀ (k : Fin 4) (s : State),
    (∀ p i, s.anyFenced (s.entry i).spans = true → ∀ j, ((launchOne k p i s).link j).txQueue = (s.link j).txQueue) ∧
    (∀ n, ¬ (s.run = .running ∧ (s.link k).state = .up ∧ s.waitingCount k < (s.linkParams k).limit ∧
      (s.launchSched k).gap = none ∧ s.journal.phase ≠ .stalled) → launchLoop k n s = s) ∧
    (∀ n, s.run = .running → (s.link k).state = .up → s.waitingCount k < (s.linkParams k).limit → (s.launchSched k).gap = none →
      s.journal.phase ≠ .stalled →
      (launchPick k s = none → launchLoop k n s = s) ∧
      (∀ p i, launchPick k s = some (p, i) →
        ((∀ x ∈ (s.entry i).spans, s.fenceCount x = 0) → launchLoop k (n + 1) s = launchLoop k n (launch k p i s)) ∧
        ((∃ x ∈ (s.entry i).spans, 0 < s.fenceCount x) →
          launchLoop k (n + 1) s = launchLoop k n (serveComparator (serveClaims (withdraw i s)))))) ∧
    serveLaunches s = launchLoop 3 128 (launchLoop 2 128 (launchLoop 1 128 (launchLoop 0 128 s)))

/-- R72 R57: the Reach Map word of a step returns: the campaign waits for its claim with the reach of its head-end node's byte (bits 1..0
primary, 3..2 alternate, 4 alternate valid), and nothing else changes before the claims of the event. -/
def Obligations.ReachMapReadGivesTheReach : Prop :=
  ∀ (data : Word) (i : Fin 8) (sel : Selected) (s : State), s.readsWith (.reach i) → (s.campaign i).step = .reach sel →
    let byte := byteOf data ((addrOf s.params.reachMap sel.head).toNat % 4)
    ∃ u r, exec (.reachMapReadDone data) s = .next (settle u) ∧ u = { s.portFreed with ctrl := u.ctrl } ∧
      u.campaign i = { s.campaign i with step := .claim sel r } ∧ (∀ j, j ≠ i → u.campaign j = s.campaign j) ∧
      u.ctrl.nextId = s.ctrl.nextId ∧ u.ctrl.offer = s.ctrl.offer ∧
      r.primary.val = byte.toNat % 4 ∧ r.alternate.val = byte.toNat / 4 % 4 ∧ r.altValid = byte.getLsbD 4 ∧
      (settle u).hostSide = s.hostSide ∧ (∀ a, readByte (settle u).memory a = readByte s.memory a)

/-- R53 R54 R55 R56 R60 R69 R72: the outcome of a selection step whose custody action has ended, for a campaign in SELECTING. Not watched
and route unusable skip the circuit; rejected counts selected and ROUTE_INVALID; in RUNNING a watched or claimed circuit that shares no span
with a list span set is skipped, one with a fenced span counts selected and deferred, and otherwise a claimed one joins the entry of the
circuit, counting selected and joined, or, with no such entry, begins the step afresh, and a watched one begins its Reach Map read (04 R72);
in STOPPING no span test is made and the cursor stays (R69). In every case but the last three the cursor advances: past the last circuit the
campaign is DRAINING with its slot word written, else in RUNNING the next step asks for its custody action. No other campaign changes. A
campaign in another state, or without a step waiting for its action, changes nothing; nor does any campaign in another run state than
RUNNING and STOPPING, where the Campaign Table is not used (R69). -/
def Obligations.SelectionOutcomesMoveTheCursor : Prop :=
  ∀ (i : Fin 8) (s : State),
    let c := s.campaign i
    let next := match c.spanSet with | .single _ => s.params.circuitCount | _ => c.cursor + 1
    let meets := fun (sel : Selected) => match c.spanSet with | .list l => ∃ x ∈ sel.spans, x ∈ l | _ => True
    let fenced := fun (sel : Selected) => ∃ x ∈ sel.spans, 0 < s.fenceCount x
    let moves := fun (t : State) (d : Campaign) =>
      (∀ j, j ≠ i → t.campaign j = s.campaign j) ∧
      (s.params.circuitCount ≤ next →
        t.campaign i = { d with cursor := next, state := .draining, step := .idle } ∧ t.custody = s.custody ∧
        t.queue .campaign = s.queue .campaign ++
          [⟨addrOf s.params.controlBlock (0x170 + 4 * i.val), some (slotWord (t.campaign i)), .plain⟩]) ∧
      (next < s.params.circuitCount → t.queue .campaign = s.queue .campaign ∧
        (s.run = .running → t.campaign i = { d with cursor := next, step := .custody } ∧
          t.custody = { s.custody with queue := s.custody.queue ++ [(s.eventNo, .select i c.id next true)] }) ∧
        (s.run ≠ .running → t.campaign i = { d with cursor := next, step := .idle } ∧ t.custody = s.custody))
    let skips := fun (t : State) => moves t c ∧ t = { s with ctrl := t.ctrl, custody := t.custody, master := t.master }
    let counts := fun (t : State) (n : Counts) =>
      moves t { c with counts := n } ∧ t = { s with ctrl := t.ctrl, custody := t.custody, master := t.master }
    ((s.run ≠ .running ∧ s.run ≠ .stopping) ∨ c.state ≠ .selecting ∨ c.step ≠ .custody → ∀ o, stepOutcome i o s = s) ∧
    (s.run = .running ∨ s.run = .stopping → c.state = .selecting → c.step = .custody →
      skips (stepOutcome i .notWatched s) ∧ skips (stepOutcome i .unusable s) ∧
      counts (stepOutcome i .rejected s)
        { c.counts with selected := c.counts.selected + 1, routeInvalid := c.counts.routeInvalid + 1 } ∧
      ∀ (sel : Selected), ∀ o ∈ [SelectOutcome.watched sel, .claimed sel],
        let t := stepOutcome i o s
        (s.run ≠ .running → t = modCampaign i (fun c => { c with step := .idle }) s) ∧
        (s.run = .running → ¬ meets sel → skips t) ∧
        (s.run = .running → meets sel → fenced sel →
          counts t { c.counts with selected := c.counts.selected + 1, deferred := c.counts.deferred + 1 }) ∧
        (s.run = .running → meets sel → ¬ fenced sel → o = .claimed sel →
          (∀ e, holdingEntry s sel.circuit = some e →
            moves t { c with
              joinedOut := c.joinedOut + 1
              counts := { c.counts with selected := c.counts.selected + 1, joined := c.counts.joined + 1 } } ∧
            t = { s with ctrl := t.ctrl, custody := t.custody, master := t.master, probes := t.probes } ∧
            t.entry e = { s.entry e with joiners := insertJoiner i (s.entry e).joiners } ∧
            (∀ j, j ≠ e → t.entry j = s.entry j) ∧ t.probes.outcomes = s.probes.outcomes ∧ t.probes.scheds = s.probes.scheds) ∧
          (holdingEntry s sel.circuit = none →
            t = { s with ctrl := t.ctrl, custody := t.custody } ∧ t.campaign i = c ∧
            (∀ j, j ≠ i → t.campaign j = s.campaign j) ∧
            t.custody = { s.custody with queue := s.custody.queue ++ [(s.eventNo, .select i c.id c.stepCircuit true)] })) ∧
        (s.run = .running → meets sel → ¬ fenced sel → o = .watched sel →
          t = { s with ctrl := t.ctrl, master := t.master } ∧ t.campaign i = { c with step := .reach sel } ∧
          (∀ j, j ≠ i → t.campaign j = s.campaign j) ∧
          t.queue .probe = s.queue .probe ++ [⟨addrOf s.params.reachMap sel.head &&& 0xFFFFFFFC, none, .reach i⟩] ∧
          (∀ q, q ≠ .probe → t.queue q = s.queue q)))

/-- R57 R18 R59 R73 R56 R58: a claim, decided at its own event. With a fenced span in its list the campaign counts selected and deferred and
no entry is taken. At a WATCHED map entry the free entry is filled with the next generation, the circuit, trail, head, reach, class, spans
and revision of the step, this campaign its owner, on the chosen link at the tail of its class's queue, or CONCLUDED with NOT_TESTED where
BIND leaves none; the map entry becomes CLAIMED with pending release NONE and its engine word is handed over with verdict and campaign id
unchanged; the campaign counts selected and owns one more. At CLAIMED the claim is a join. In any other state nothing is counted. In
RUNNING, while a FREE entry and a claimant below its depth wait, the lowest FREE entry goes to the first claimant by class, start time and
slot, each at most once in an event; no claim is made outside RUNNING. -/
def Obligations.ClaimsTakeEntriesInOrder : Prop :=
  (∀ (i : Fin 8) (sel : Selected) (r : Reach) (e : Fin 64) (s : State),
    let c := s.campaign i
    let m := s.mapEntry sel.circuit
    let x := s.entry e
    let t := makeClaim i sel r e s
    let fenced := ∃ y ∈ sel.spans, 0 < s.fenceCount y
    let next := match c.spanSet with | .single _ => s.params.circuitCount | _ => c.cursor + 1
    let filled : Entry :=
      { generation := (x.generation + 1) % 1024, state := .queued, circuit := sel.circuit, trail := sel.trail, head := sel.head
        reach := r, link := r.primary, cls := c.cls, owner := i, spans := sel.spans, revision := sel.revision }
    (fenced ∨ (m.engine ≠ .watched ∧ m.engine ≠ .claimed) →
      t.probes = s.probes ∧ t.custody.map = s.custody.map ∧ t.queue .custody = s.queue .custody ∧
      (t.campaign i).cursor = next ∧ (t.campaign i).owned = c.owned ∧
      (t.campaign i).counts = (if s.anyFenced sel.spans
        then { c.counts with selected := c.counts.selected + 1, deferred := c.counts.deferred + 1 } else c.counts)) ∧
    (¬ fenced → m.engine = .watched →
      (∀ d, d ≠ sel.circuit → t.mapEntry d = s.mapEntry d) ∧
      t.mapEntry sel.circuit = { m with engine := .claimed, release := .none } ∧
      t.queue .custody = s.queue .custody ++
        [⟨recordAddr s sel.circuit 0x0C, some (engineWord .claimed m.lastVerdict m.lastCampaign), .plain⟩] ∧
      (t.campaign i).cursor = next ∧ (t.campaign i).owned = c.owned + 1 ∧
      (t.campaign i).counts = { c.counts with selected := c.counts.selected + 1 } ∧
      (∀ j, j ≠ e → t.entry j = s.entry j) ∧
      (∀ k, chooseLink s r = some k → t.entry e = { filled with link := k } ∧ t.probes.outcomes = s.probes.outcomes ∧
        (∀ l, l ≠ k → t.launchSched l = s.launchSched l) ∧
        (t.launchSched k).queueOf c.cls = (s.launchSched k).queueOf c.cls ++ [e] ∧
        (t.launchSched k).queueOf c.cls.other = (s.launchSched k).queueOf c.cls.other) ∧
      (chooseLink s r = none → t.entry e = { filled with state := .concluded, outcome := some .notTested } ∧
        t.probes.outcomes = s.probes.outcomes ++ [e] ∧ t.probes.scheds = s.probes.scheds)) ∧
    (¬ fenced → m.engine = .claimed → t = joinEntry i sel s)) ∧
  (∀ (s : State) (e : Fin 64), freeEntry s = some e ↔
    (s.entry e).state = .free ∧ ∀ j, j < e → (s.entry j).state ≠ .free) ∧
  (∀ (s : State),
    let waits := fun (i : Fin 8) => (s.campaign i).state = .selecting ∧ (s.campaign i).owned < s.params.depth ∧
      ∃ sel r, (s.campaign i).step = .claim sel r
    let first := fun (i j : Fin 8) =>
      ((s.campaign i).cls = .urgent ∧ (s.campaign j).cls = .routine) ∨
      ((s.campaign i).cls = (s.campaign j).cls ∧
        ((s.campaign i).startTime < (s.campaign j).startTime ∨
          ((s.campaign i).startTime = (s.campaign j).startTime ∧ i < j)))
    (∀ i, bestClaimant s = some i ↔ waits i ∧ ∀ j, waits j → j ≠ i → first i j) ∧
    (s.run ≠ .running ∨ freeEntry s = none ∨ (∀ i, ¬ waits i) → serveClaims s = s) ∧
    (∀ i e sel r, s.run = .running → bestClaimant s = some i → freeEntry s = some e → (s.campaign i).step = .claim sel r →
      serveClaims s = claimLoop 7 (makeClaim i sel r e s)))

/-- R19 R58 R60 R61 R82 R83 R84 R123 R11: a circuit leaves CLAIMED for the state its entry's end gives it, or RELEASED or IGNORED where that
release is pending, which becomes NONE; a custody action in flight on it is noted as disturbed, in a note of the model's own by which the
action is begun again (R11, log entry 14). The owner and each joiner of an entry close their interest with one count, the owner's
owned-outstanding and each joiner's joined-outstanding falling by one, and no other campaign changes. Each verdict raises its own count by
one, and with it the sum that selected equals. A withdrawal of an entry counts DEFERRED, frees the entry, which leaves its launch queue,
keeping its generation alone, and hands over the engine word of the state its circuit leaves for, verdict and campaign id unchanged. A
verdict written counts it, frees the entry, takes the circuit out of CLAIMED for REJECTED at EDITED and ROUTE_INVALID and for WATCHED at any
other, ends the custody action and leaves the Comparator idle. -/
def Obligations.EntriesLeaveAndAreCounted : Prop :=
  (let left := fun (r : Release) (base : EngineState) =>
      if r = .toReleased then EngineState.released else if r = .toIgnored then .ignored else base
    let closed := fun (s t : State) (x : Entry) (f : Counts → Counts) =>
      x.joiners.Nodup → x.owner ∉ x.joiners →
        t.campaign x.owner =
          { s.campaign x.owner with owned := (s.campaign x.owner).owned - 1, counts := f (s.campaign x.owner).counts } ∧
        (∀ j ∈ x.joiners, t.campaign j =
          { s.campaign j with joinedOut := (s.campaign j).joinedOut - 1, counts := f (s.campaign j).counts }) ∧
        (∀ j, j ≠ x.owner → j ∉ x.joiners → t.campaign j = s.campaign j)
    (∀ (c : Nat) (base : EngineState) (s : State),
      let t := leave c base s
      t = { s with custody := { s.custody with map := t.custody.map, action := t.custody.action } } ∧
      t.mapEntry c = { s.mapEntry c with engine := left (s.mapEntry c).release base, release := .none } ∧
      (∀ d, d ≠ c → t.mapEntry d = s.mapEntry d) ∧
      t.custody.action = s.custody.action.map (fun a => { a with disturbed := a.disturbed || decide (a.req.circuit = c) })) ∧
    (∀ (x : Entry) (f : Counts → Counts) (s : State), closed s (closeInterests x f s) x f ∧
      closeInterests x f s = { s with ctrl := { s.ctrl with slots := (closeInterests x f s).ctrl.slots } }) ∧
    (∀ (i : Fin 64) (s : State), (s.entry i).state.isOpen = true →
      let x := s.entry i
      let m := s.mapEntry x.circuit
      let after := left m.release .watched
      let t := withdraw i s
      closed s t x (fun n => { n with deferred := n.deferred + 1 }) ∧
      t = { s with ctrl := t.ctrl, probes := t.probes, custody := t.custody, master := t.master } ∧
      t.entry i = { generation := x.generation } ∧ (∀ j, j ≠ i → t.entry j = s.entry j) ∧
      t.mapEntry x.circuit = { m with engine := after, release := .none } ∧
      (∀ d, d ≠ x.circuit → t.mapEntry d = s.mapEntry d) ∧
      (x.state = .queued → (t.launchSched x.link).queueOf x.cls = ((s.launchSched x.link).queueOf x.cls).erase i) ∧
      t.queue .custody = s.queue .custody ++
        [⟨recordAddr s x.circuit 0x0C, some (engineWord after m.lastVerdict m.lastCampaign), .plain⟩]) ∧
    (∀ (s : State) (item : Item) (result : CmpResult), s.cmp.item = some item → s.cmp.result = some result →
      let x := s.entry item.entry
      let m := s.mapEntry x.circuit
      let base := if result.verdict = .edited ∨ result.verdict = .routeInvalid then EngineState.rejected else .watched
      let t := verdictWritten s
      closed s t x (fun n => n.addVerdict result.verdict) ∧
      t = { s with ctrl := t.ctrl, probes := t.probes, custody := t.custody, cmp := t.cmp } ∧
      t.entry item.entry = { generation := x.generation } ∧ (∀ j, j ≠ item.entry → t.entry j = s.entry j) ∧
      t.mapEntry x.circuit = { m with engine := left m.release base, release := .none } ∧
      (∀ d, d ≠ x.circuit → t.mapEntry d = s.mapEntry d) ∧ t.custody.queue = s.custody.queue ∧
      t.custody.action = none ∧ t.cmp = { lastOutcome := s.cmp.lastOutcome })) ∧
  (∀ (n : Counts),
    n.addVerdict .continuous = { n with continuous := n.continuous + 1 } ∧
    n.addVerdict .degraded = { n with degraded := n.degraded + 1 } ∧
    n.addVerdict .misrouted = { n with misrouted := n.misrouted + 1 } ∧
    n.addVerdict .broken = { n with broken := n.broken + 1 } ∧
    n.addVerdict .incomplete = { n with incomplete := n.incomplete + 1 } ∧
    n.addVerdict .noEcho = { n with noEcho := n.noEcho + 1 } ∧
    n.addVerdict .notTested = { n with notTested := n.notTested + 1 } ∧
    n.addVerdict .edited = { n with edited := n.edited + 1 } ∧
    n.addVerdict .routeInvalid = { n with routeInvalid := n.routeInvalid + 1 } ∧
    ∀ v, v ≠ .none → (n.addVerdict v).closed = n.closed + 1)

/-- R65 R66 R67 R39 R38 R50 R49 R48: in RUNNING, with no SUMMARY handed over, the lowest campaign in DRAINING or ABORTING with nothing owned
or joined outstanding hands its SUMMARY to the Journal Writer, formed at that event: kind SUMMARY, 72 bytes, with id, origin, class and
aborted flag, cursor, start time, NET_TIME as end time, and the thirteen counts; otherwise nothing is handed over. When the entry has been
written the slot is FREE and its word handed over, the window of a window campaign is FINISHED with VERIFIED, or ABORTED where the campaign
was ABORTING, and its phase word due, and CAMPAIGN_DONE is set. In RUNNING, while a slot is FREE, the head of the Slot Waiting List leaves
it and becomes VERIFYING with the id of the campaign that takes the lowest FREE slot with the window's class and spans, SELECTING from
circuit 0, or DRAINING at the circuit count with an empty span list, and its slot word is handed over: id, state, origin and cursor in their
bits. -/
def Obligations.CampaignsDrainSummariseAndAreGranted : Prop :=
  (∀ (s : State),
    let complete := fun (i : Fin 8) => ((s.campaign i).state = .draining ∨ (s.campaign i).state = .aborting) ∧
      (s.campaign i).owned = 0 ∧ (s.campaign i).joinedOut = 0
    (s.run ≠ .running ∨ s.ctrl.offer ≠ none ∨ (∀ i, ¬ complete i) → serveSummaries s = s) ∧
    (∀ i, s.run = .running → s.ctrl.offer = none → complete i → (∀ j, j < i → ¬ complete j) →
      serveSummaries s = { s with
        ctrl := { s.ctrl with offer := some i }
        journal := { s.journal with campOffer := some (summaryEntry (s.campaign i) s.clock.netTime) } })) ∧
  (∀ (c : Campaign) (endTime : Word), c.id < 256 → c.origin.index < 256 → c.cursor < 65536 → c.counts.selected < 65536 →
    c.counts.closed = c.counts.selected → c.counts.joined < 65536 →
    let n := c.counts
    (summaryEntry c endTime).kind = 2 ∧ (summaryEntry c endTime).bytes = 72 ∧
    (summaryEntry c endTime).body.map (fun w => w.toNat) =
      [c.id + 256 * c.origin.kindCode + 65536 * c.origin.index + 16777216 * (if c.cls = .urgent then 1 else 0) +
          33554432 * (if c.state = .aborting then 1 else 0),
        c.cursor, c.startTime.toNat, endTime.toNat, n.selected + 65536 * n.joined, n.continuous + 65536 * n.degraded,
        n.misrouted + 65536 * n.broken, n.incomplete + 65536 * n.noEcho, n.notTested + 65536 * n.edited,
        n.routeInvalid + 65536 * n.deferred, n.abandoned, 0, 0, 0, 0, 0]) ∧
  (∀ (i : Fin 8) (s : State),
    let c := s.campaign i
    let t := summaryWritten i s
    t = { s with ctrl := t.ctrl, sched := t.sched, regs := { s.regs with events := t.regs.events }, master := t.master } ∧
    t.hasEvent .campaignDone = true ∧ t.campaign i = {} ∧ t.ctrl.offer = none ∧ (∀ j, j ≠ i → t.campaign j = s.campaign j) ∧
    t.queue .campaign = s.queue .campaign ++ [⟨addrOf s.params.controlBlock (0x170 + 4 * i.val), some 0, .plain⟩] ∧
    (∀ w, c.origin = .window w → w ∈ t.sched.phaseDue ∧ (∀ v, v ≠ w → t.window v = s.window v) ∧
      t.window w =
        { s.window w with phase := .finished, reason := if c.state = .aborting then .aborted else .verified }) ∧
    ((∀ w, c.origin ≠ .window w) → t.sched = s.sched)) ∧
  (∀ (s : State),
    (s.run ≠ .running ∨ s.sched.slotWait = [] ∨ freeSlot s = none → serveGrants s = s) ∧
    (∀ w rest i, s.run = .running → s.sched.slotWait = w :: rest → freeSlot s = some i →
      let x := s.window w
      let id := chooseId s 8 s.ctrl.nextId
      let t := grant i w s
      serveGrants s = grantLoop 7 t ∧ t.sched.slotWait = rest ∧ w ∈ t.sched.phaseDue ∧
      t.window w = { x with phase := .verifying, campaign := id } ∧ (∀ v, v ≠ w → t.window v = s.window v) ∧
      (∀ j, j ≠ i → t.campaign j = s.campaign j) ∧ t.ctrl.nextId = idAfter id ∧
      t.campaign i = { id := id, origin := .window w, cls := x.cls, spanSet := .list x.spans, startTime := s.clock.netTime
                       state := if x.spans = [] then .draining else .selecting
                       cursor := if x.spans = [] then s.params.circuitCount else 0
                       step := if x.spans = [] then .idle else .custody } ∧
      t.queue .campaign = s.queue .campaign ++
        [⟨addrOf s.params.controlBlock (0x170 + 4 * i.val), some (slotWord (t.campaign i)), .plain⟩] ∧
      (∀ q, q ≠ .campaign → t.queue q = s.queue q) ∧
      t.custody = { s.custody with
        queue := s.custody.queue ++ (if x.spans = [] then [] else [(s.eventNo, .select i id 0 true)]) })) ∧
  (∀ c : Campaign, (c.state = .free → slotWord c = 0) ∧ (c.state ≠ .free → c.id < 256 → c.origin.index < 64 → c.cursor < 8192 →
    (slotWord c).toNat =
      c.id + 256 * c.state.code + 1024 * c.origin.kindCode + 4096 * c.origin.index + 262144 * c.cursor))

/-- R62 R63 R64 R58 R85 R19: an aborted campaign i. Each entry it owns in QUEUED, WAITING or BACKOFF: with no joiner it returns to FREE and
leaves its launch queue, its circuit leaves CLAIMED with the engine word of its new state handed over, verdict and campaign id unchanged,
and the campaign counts ABANDONED and owns one less; with joiners ownership passes to the first of them, which leaves the join set and
counts one owned more and one joined less, the entry otherwise as it was and the circuit still CLAIMED. An entry it owns in CONCLUDED or
COMPARING keeps it as owner. Then it leaves the join set of every entry not FREE that holds it, counting ABANDONED and one joined less for
each. The campaign becomes ABORTING with its cursor and id as they stand and its step given up: no selection request of it is live any more;
and its slot word is handed over. -/
def Obligations.AbortGivesUpTheEntries : Prop :=
  ∀ (i : Fin 8) (s : State),
    let c := s.campaign i
    (∀ (e : Fin 64),
      let x := s.entry e
      let t := abortOwned i s e
      let up := { c.counts with abandoned := c.counts.abandoned + 1 }
      (x.state.isOpen = false ∨ x.owner ≠ i → t = s) ∧
      (x.state.isOpen = true → x.owner = i → (∀ d, d ≠ e → t.entry d = s.entry d) ∧
        (x.joiners = [] →
          t.entry e = { generation := x.generation } ∧ t.campaign i = { c with owned := c.owned - 1, counts := up } ∧
          (∀ j, j ≠ i → t.campaign j = s.campaign j) ∧
          t = { s with ctrl := { s.ctrl with slots := t.ctrl.slots }, probes := t.probes, custody := t.custody, master := t.master } ∧
          t.probes.outcomes = s.probes.outcomes ∧ (x.state ≠ .queued → t.probes.scheds = s.probes.scheds) ∧
          (x.state = .queued → (t.launchSched x.link).queueOf x.cls = ((s.launchSched x.link).queueOf x.cls).erase e ∧
            (t.launchSched x.link).queueOf x.cls.other = (s.launchSched x.link).queueOf x.cls.other ∧
            ∀ k, k ≠ x.link → t.launchSched k = s.launchSched k) ∧
          t.custody = (leave x.circuit .watched s).custody ∧
          (let m := s.mapEntry x.circuit
           let after := if m.release = .toReleased then EngineState.released else if m.release = .toIgnored then .ignored else .watched
           t.mapEntry x.circuit = { m with engine := after, release := .none } ∧
           t.queue .custody = s.queue .custody ++
             [⟨recordAddr s x.circuit 0x0C, some (engineWord after m.lastVerdict m.lastCampaign), .plain⟩] ∧
           ∀ q, q ≠ .custody → t.queue q = s.queue q)) ∧
        (∀ j rest, x.joiners = j :: rest →
          t = { s with ctrl := { s.ctrl with slots := t.ctrl.slots }, probes := { s.probes with entries := t.probes.entries } } ∧
          t.entry e = { x with owner := j, joiners := rest } ∧
          t.campaign i = { c with
            owned := c.owned - 1 + (if j = i then 1 else 0), joinedOut := c.joinedOut - (if j = i then 1 else 0), counts := up } ∧
          (j ≠ i → t.campaign j =
            { s.campaign j with owned := (s.campaign j).owned + 1, joinedOut := (s.campaign j).joinedOut - 1 }) ∧
          (∀ m, m ≠ i → m ≠ j → t.campaign m = s.campaign m)))) ∧
    (∀ (e : Fin 64),
      let x := s.entry e
      let t := abortJoined i s e
      (x.state = .free ∨ i ∉ x.joiners → t = s) ∧
      (x.state ≠ .free → i ∈ x.joiners →
        t = { s with ctrl := { s.ctrl with slots := t.ctrl.slots }, probes := { s.probes with entries := t.probes.entries } } ∧
        t.entry e = { x with joiners := x.joiners.erase i } ∧ (∀ d, d ≠ e → t.entry d = s.entry d) ∧
        t.campaign i =
          { c with joinedOut := c.joinedOut - 1, counts := { c.counts with abandoned := c.counts.abandoned + 1 } } ∧
        (∀ j, j ≠ i → t.campaign j = s.campaign j))) ∧
    (let t := becomeAborting i s;
      t = { s with ctrl := t.ctrl, probes := t.probes, custody := t.custody, master := t.master } ∧
      (∀ e, let x := s.entry e
        (x.state.isOpen = true → x.owner = i → x.joiners = [] → t.entry e = { generation := x.generation }) ∧
        (∀ j rest, x.state.isOpen = true → x.owner = i → x.joiners = j :: rest →
          t.entry e = { x with owner := j, joiners := rest.erase i }) ∧
        (x.state ≠ .free → x.state.isOpen = false ∨ x.owner ≠ i → t.entry e = { x with joiners := x.joiners.erase i }) ∧
        (x.state = .free → t.entry e = x)) ∧
      (t.campaign i).state = .aborting ∧ (t.campaign i).step = .idle ∧ (t.campaign i).cursor = c.cursor ∧
      (t.campaign i).id = c.id ∧
      (∀ n id d, (n, CustodyReq.select i id d true) ∉ t.custody.queue) ∧
      (∀ a id d, t.custody.action = some a → a.req ≠ .select i id d true) ∧
      ∃ before, t.queue .campaign =
        before ++ [⟨addrOf s.params.controlBlock (0x170 + 4 * i.val), some (slotWord (t.campaign i)), .plain⟩])

/-! ### Custody (01 R8 to R19) -/

/-- R12 R15 R11 R20 R161 R32: the last word of a sweep action's record reads returns (log entries 3 and 15). By the request, the engine
state and the revision, the map entry stays, becomes IGNORED or RELEASED with its engine word written, takes a pending release (CLAIMED
only), is validated (the route read begins with record word 0x04), or is an illegal edit (R15: REJECTED, the captured revision and the
engine word with EDITED and campaign id 0 handed over together: log entry 17). Other map entries and memory stand; an action on an entry
that a claim or a leave has changed is begun again (R11; log entry 14). An action that leaves the engine state as it is ends at once, one
that writes an engine word alone ends with that write, and a sweep's action that has ended asks for the next circuit's; after the last
circuit the window part begins with the first window whose phase calls for a read, or, with none, the request scan with its control word.
The idle Custody Unit begins, in RUNNING and STOPPING, the request that has waited longest, with the read of its record's host word; which
of those that arrived at one event is left free (log entry 5), and the first of them where it came alone. -/
def Obligations.HostWordActionFollowsTheTable : Prop :=
  (∀ (data : Word) (s : State) (c : Nat) (got : List Word) (disturbed : Bool),
    s.readsWith .record → s.custody.action = some { req := .sweep c, disturbed := disturbed, phase := .reading got } →
    got.length = 5 →
    let words := recordWords (got ++ [data])
    let req := hostRequest words.host
    let rev := hostRevision words.host
    let e := s.mapEntry c
    let same := rev = bits words.captured 15 0
    let write := fun (o : Nat) (w : Word) (tag : Tag) => (⟨recordAddr s c o, some w, tag⟩ : Access)
    let word := fun (st : EngineState) => engineWord st e.lastVerdict e.lastCampaign
    ∃ u, exec (.hostWordReadDone data) s = .next (settle u) ∧
      u = { s.portFreed with custody := u.custody, master := u.master, reader := u.reader, sched := u.sched } ∧
      u.sched = { s.sched with refresh := u.sched.refresh } ∧
      (settle u).hostSide = s.hostSide ∧ (∀ a, readByte (settle u).memory a = readByte s.memory a) ∧
      (∀ d, d ≠ c → u.mapEntry d = s.mapEntry d) ∧
      (disturbed = true → u.mapEntry c = e ∧ u.custody.action = some { req := .sweep c, phase := .reading [] } ∧
        u.queue .custody = s.queue .custody ++ [⟨recordAddr s c 0x00, none, .record⟩]) ∧
      (disturbed = false →
        (e.engine = .claimed → u.mapEntry c = { e with release :=
          if req = .active then .none else if req = .recall then .toReleased else .toIgnored } ∧
          u.queue .custody = s.queue .custody ∧ u = sweepNext (setAction none (setMapEntry c (u.mapEntry c) s.portFreed))) ∧
        (req = .vacant → e.engine ≠ .claimed → e.engine ≠ .ignored → u.mapEntry c = { e with engine := .ignored } ∧
          u.custody.action = some { req := .sweep c, phase := .writing (.finish .notWatched) } ∧
          u.queue .custody = s.queue .custody ++ [write 0x0C (word .ignored) .actionEnd]) ∧
        (req = .recall → e.engine = .watched ∨ e.engine = .rejected → u.mapEntry c = { e with engine := .released } ∧
          u.custody.action = some { req := .sweep c, phase := .writing (.finish .notWatched) } ∧
          u.queue .custody = s.queue .custody ++ [write 0x0C (word .released) .actionEnd]) ∧
        (req = .active → e.engine = .watched → ¬ same →
          u.mapEntry c = { engine := .rejected, lastVerdict := Verdict.edited.code } ∧
          u.custody.action = some
            { req := .sweep c, phase := .writing (.journal rev .edited (baselineOfWord words.baseline) [] .notWatched) } ∧
          u.queue .custody = s.queue .custody ++
            [write 0x10 (field rev 16 0) .plain, write 0x0C (engineWord .rejected Verdict.edited.code 0) .actionEnd]) ∧
        (req = .active → e.engine = .ignored ∨ e.engine = .released ∨ (e.engine = .rejected ∧ ¬ same) →
          u.mapEntry c = e ∧ u.custody.action = some { req := .sweep c, phase := .routing words {} } ∧
          u.queue .custody = s.queue .custody ++ [⟨recordAddr s c 0x04, none, .route⟩]) ∧
        ((e.engine = .ignored ∧ req ≠ .active) ∨ (e.engine = .released ∧ req = .recall) ∨
            ((e.engine = .rejected ∨ e.engine = .watched) ∧ req = .active ∧ same) →
          u.mapEntry c = e ∧ u.queue .custody = s.queue .custody ∧ u = sweepNext (setAction none s.portFreed)))) ∧
  (∀ (data : Word) (s : State) (r : Requester) (x : Access) (a : Action) (c : Nat) (o : SelectOutcome),
    s.master.port = some (r, x) → x.tag = .actionEnd → s.custody.action = some a → a.req = .sweep c → a.phase = .writing (.finish o) →
    exec (.memoryAccessDone data) s = .next (settle (sweepNext (setAction none (endAccess x s))))) ∧
  (∀ (s : State),
    let next := s.reader.circuit + 1
    let t := sweepNext s
    let windows := { s.reader with sweep := .windows, window := 0 }
    (s.run ≠ .running ∨ s.reader.sweep ≠ .custody → t = s) ∧
    (s.run = .running → s.reader.sweep = .custody → next < s.params.circuitCount →
      t = { s with
        reader := { s.reader with circuit := next }
        custody := { s.custody with queue := s.custody.queue ++ [(s.eventNo, .sweep next)] } }) ∧
    (s.run = .running → s.reader.sweep = .custody → s.params.circuitCount ≤ next →
      (∀ w k, nextRefresh { s with reader := windows } = some (w, k) →
        t = { s with
          reader := { windows with window := w.val }, sched := { s.sched with refresh := some { window := w, kind := k } }
          master := t.master } ∧ t.master.port = s.master.port ∧
        t.queue .window = s.queue .window ++ [⟨addrOf s.params.windowList (96 * w.val + 0x00), none, .refresh⟩] ∧
        ∀ q, q ≠ .window → t.queue q = s.queue q) ∧
      (nextRefresh { s with reader := windows } = none →
        t = { s with
          reader := { windows with sweep := .requests, stage := .control, processed := 0 }
          sched := { s.sched with refresh := none }, master := t.master } ∧ t.master.port = s.master.port ∧
        t.queue .request = s.queue .request ++
          [⟨addrOf s.params.requestList (48 * s.reader.nextIndex + 0), none, .reqControl⟩] ∧
        ∀ q, q ≠ .request → t.queue q = s.queue q))) ∧
  (∀ (s : State),
    let calls := fun (w : Fin 64) => w.val < s.params.windowCount ∧ s.reader.window ≤ w.val ∧
      (s.window w).phase ≠ .settling ∧ (s.window w).phase ≠ .queued ∧ (s.window w).phase ≠ .verifying
    ((∀ w, ¬ calls w) → nextRefresh s = none) ∧
    (∀ w, calls w → (∀ v, v < w → ¬ calls v) → nextRefresh s = some (w,
      if (s.window w).phase = .opened then .armAndClose else if (s.window w).phase = .finished then .armOnly else .full))) ∧
  (∀ (s : State),
    (s.custody.action ≠ none ∨ s.custody.queue = [] ∨ (s.run ≠ .running ∧ s.run ≠ .stopping) → serveCustody s = s) ∧
    (∀ n req rest, s.custody.action = none → s.run = .running ∨ s.run = .stopping → s.custody.queue = (n, req) :: rest →
      let t := serveCustody s
      ∃ before r after, s.custody.queue = before ++ (n, r) :: after ∧ (∀ x ∈ before, x.1 = n) ∧
        ((∀ x ∈ rest.head?, x.1 ≠ n) → before = []) ∧
        t = { s with custody := t.custody, master := t.master, freeCount := t.freeCount } ∧
        t.custody = { s.custody with action := some { req := r, phase := .reading [] }, queue := before ++ after } ∧
        t.queue .custody = s.queue .custody ++ [⟨recordAddr s r.circuit 0x00, none, .record⟩] ∧
        (∀ q, q ≠ .custody → t.queue q = s.queue q) ∧ t.master.port = s.master.port))

/-- R13 R14 R15 R9 R22: the word that decides a route read returns, of a sweep action or of the load's. A valid route is an acceptance:
WATCHED with pending release NONE, the baseline set absent and the revision captured where it differs from the captured one, then the engine
word with its last verdict and campaign id unchanged, which the load writes only where the word showed another state (log entries 16 and
12). An invalid route is a rejection: REJECTED, the revision captured, then the engine word with ROUTE_INVALID and campaign id 0, at a load
too (log entry 16), the baseline untouched. The writes are handed over in that order (log entry 17). An acceptance ends with its last write,
and a sweep's goes on with the next circuit then (HostWordActionFollowsTheTable says how). A load's acceptance that writes nothing ends its
action, and the next circuit's begins, host word first (log entry 3), or after the last one the load ends (LoadTakesTheMapFromEngineWords
says how). When the last write of a rejection or an illegal edit has reached memory, outside HALTED its VERDICT entry is offered to the
Journal Writer: REJECTED, with NET_TIME at that event (log entry 7), the baseline before and after, the campaigns, all else 0. Other map
entries and memory stand. -/
def Obligations.RouteReadAcceptsOrRejects : Prop :=
  (∀ (data : Word) (s : State) (c : Nat) (words : RecordWords) (rr : RouteRead) (route : Option Route) (isLoad : Bool),
    let req := if isLoad then CustodyReq.load c else .sweep c
    s.readsWith .route → s.custody.action = some { req := req, phase := .routing words rr } →
    routeAdvance s c rr data = .done route →
    let rev := hostRevision words.host
    let e := s.mapEntry c
    let same := rev = bits words.captured 15 0
    let shown := isLoad = true ∧ bits words.engine 2 0 = 1
    let write := fun (o : Nat) (w : Word) (tag : Tag) => (⟨recordAddr s c o, some w, tag⟩ : Access)
    let word := write 0x0C (engineWord .watched e.lastVerdict e.lastCampaign) .actionEnd
    ∃ u, exec (.routeReadDone data) s = .next (settle u) ∧
      u = { s.portFreed with custody := u.custody, master := u.master, loader := u.loader, reader := u.reader, regs := u.regs } ∧
      (settle u).hostSide = s.hostSide ∧ (∀ a, readByte (settle u).memory a = readByte s.memory a) ∧
      (∀ d, d ≠ c → u.mapEntry d = s.mapEntry d) ∧
      (isLoad = false ∨ route = none ∨ ¬ (same ∧ shown) →
        u.loader = s.loader ∧ u.reader = s.reader ∧ u.regs = s.regs) ∧
      (route.isSome = true →
        u.mapEntry c = { e with engine := .watched, release := .none } ∧
        (¬ shown → u.queue .custody = s.queue .custody ++
          (if same then [] else [write 0x14 0 .plain, write 0x10 (field rev 16 0) .plain]) ++ [word]) ∧
        (shown → ¬ same →
          u.queue .custody = s.queue .custody ++ [write 0x14 0 .plain, write 0x10 (field rev 16 0) .actionEnd]) ∧
        (¬ (shown ∧ same) → u.custody.action = some { req := req, phase := .writing (.finish .notWatched) }) ∧
        (shown → same → s.run = .loading → s.loader.step = .custody → s.loader.index + 1 < s.params.circuitCount →
          u.loader = { s.loader with index := s.loader.index + 1 } ∧
          u.custody.action = some { req := .load (s.loader.index + 1), phase := .reading [] } ∧
          u.queue .custody = s.queue .custody ++ [⟨recordAddr s (s.loader.index + 1) 0x00, none, .record⟩]) ∧
        (shown → same →
          u = loadNext (setAction none (setMapEntry c { e with engine := .watched, release := .none } s.portFreed)))) ∧
      (route = none →
        u.mapEntry c = { engine := .rejected, lastVerdict := Verdict.routeInvalid.code } ∧
        u.custody.action = some
          { req := req, phase := .writing (.journal rev .routeInvalid (baselineOfWord words.baseline) [] .notWatched) } ∧
        u.queue .custody = s.queue .custody ++
          [write 0x10 (field rev 16 0) .plain, write 0x0C (engineWord .rejected Verdict.routeInvalid.code 0) .actionEnd])) ∧
  (∀ (data : Word) (s : State) (r : Requester) (x : Access) (a : Action) (rev : Nat) (v : Verdict) (baseline : Option Int)
      (ids : List Nat) (o : SelectOutcome),
    s.master.port = some (r, x) → x.tag = .actionEnd → s.custody.action = some a →
    a.phase = .writing (.journal rev v baseline ids o) → s.run ≠ .halted →
    let b := field (baselineField baseline) 16 0 ||| field (baselineField baseline) 16 16
    ∃ u entry, exec (.memoryAccessDone data) s = .next (settle u) ∧
      u = { endAccess x s with
        custody := { s.custody with action := some { a with phase := .entry o } }
        journal := { s.journal with custOffer := some entry } } ∧
      entry.kind = 1 ∧ entry.bytes = 56 ∧ entry.body =
        [field a.req.circuit 16 0 ||| field rev 16 16, field v.code 8 0 ||| 0x300, s.clock.netTime, 0, 0, b,
          field ids.length 4 0,
          field (idByte ids 0) 8 0 ||| field (idByte ids 1) 8 8 ||| field (idByte ids 2) 8 16 ||| field (idByte ids 3) 8 24,
          field (idByte ids 4) 8 0 ||| field (idByte ids 5) 8 8 ||| field (idByte ids 6) 8 16 ||| field (idByte ids 7) 8 24,
          0, 0, 0])

/-- R16 R12 R13 R14 R15 R11: the custody action of a selection. When its record reads return (log entries 3 and 15): VACANT and RECALL move
WATCHED, REJECTED and RELEASED circuits as the table of R12 says, with the engine word written; an illegal edit is REJECTED with EDITED and
the campaign's id; a WATCHED circuit of the captured revision, a CLAIMED one, and one to be validated have their route read; any other
action ends with "not watched". When the route has been read: at WATCHED the action ends with "watched" for a valid route and is a rejection
with the campaign's id for an invalid one; at CLAIMED the pending release is applied (log entry 15) and it ends with "claimed" or "route
unusable"; a validation ends in acceptance, the outcome then "watched", or in such a rejection. The writes of a rejection, an illegal edit
or an acceptance are handed over together, in their order (log entry 17). An action whose entry a claim or a leave has changed is begun
again (log entry 14). An action that writes without a journal entry ends with its last write, the campaign given its outcome. The campaign
acts on an outcome while the selection is live and the part is RUNNING or STOPPING (R69). Other map entries and memory stand. -/
def Obligations.SelectionActionsEndByTheTable : Prop :=
  (∀ (data : Word) (s : State) (i : Fin 8) (id c : Nat) (live disturbed : Bool),
    let e := s.mapEntry c
    let write := fun (o : Nat) (w : Word) (tag : Tag) => (⟨recordAddr s c o, some w, tag⟩ : Access)
    let act := fun (p : ActionPhase) => some ({ req := .select i id c live, phase := p } : Action)
    let ends := fun (o : SelectOutcome) (t : State) => if live then stepOutcome i o (setAction none t) else setAction none t
    let again := fun (u : State) => u.custody = { s.custody with action := act (.reading []) } ∧
      u.queue .custody = s.queue .custody ++ [⟨recordAddr s c 0x00, none, .record⟩]
    let kept := fun (u : State) => (settle u).hostSide = s.hostSide ∧
      (∀ a, readByte (settle u).memory a = readByte s.memory a) ∧ (∀ d, d ≠ c → u.mapEntry d = s.mapEntry d)
    (∀ got, s.readsWith .record →
      s.custody.action = some { req := .select i id c live, disturbed := disturbed, phase := .reading got } → got.length = 5 →
      let words := recordWords (got ++ [data])
      let req := hostRequest words.host
      let rev := hostRevision words.host
      let same := rev = bits words.captured 15 0
      let word := fun (st : EngineState) => engineWord st e.lastVerdict e.lastCampaign
      let reads := (e.engine = .claimed) ∨ (req = .active ∧
        ((e.engine = .watched ∧ same) ∨ e.engine = .ignored ∨ e.engine = .released ∨ (e.engine = .rejected ∧ ¬ same)))
      ∃ u, exec (.hostWordReadDone data) s = .next (settle u) ∧ kept u ∧
        (disturbed = true → u.mapEntry c = e ∧ again u) ∧
        (disturbed = false →
          (reads → u.mapEntry c = e ∧ u.custody.action = act (.routing words {}) ∧
            u.queue .custody = s.queue .custody ++ [⟨recordAddr s c 0x04, none, .route⟩]) ∧
          (req = .vacant → e.engine ≠ .claimed → e.engine ≠ .ignored → u.mapEntry c = { e with engine := .ignored } ∧
            u.custody.action = act (.writing (.finish .notWatched)) ∧
            u.queue .custody = s.queue .custody ++ [write 0x0C (word .ignored) .actionEnd]) ∧
          (req = .recall → e.engine = .watched ∨ e.engine = .rejected → u.mapEntry c = { e with engine := .released } ∧
            u.custody.action = act (.writing (.finish .notWatched)) ∧
            u.queue .custody = s.queue .custody ++ [write 0x0C (word .released) .actionEnd]) ∧
          (req = .active → e.engine = .watched → ¬ same →
            u.mapEntry c = { engine := .rejected, lastVerdict := Verdict.edited.code, lastCampaign := id } ∧
            u.custody.action = act (.writing (.journal rev .edited (baselineOfWord words.baseline) [id] .notWatched)) ∧
            u.queue .custody = s.queue .custody ++
              [write 0x10 (field rev 16 0) .plain, write 0x0C (engineWord .rejected Verdict.edited.code id) .actionEnd]) ∧
          ((req ≠ .active ∧ e.engine = .ignored) ∨ (req = .recall ∧ e.engine = .released) ∨
              (req = .active ∧ e.engine = .rejected ∧ same) →
            u = ends .notWatched s.portFreed))) ∧
    (∀ words rr route, s.readsWith .route →
      s.custody.action = some { req := .select i id c live, disturbed := disturbed, phase := .routing words rr } →
      routeAdvance s c rr data = .done route →
      let rev := hostRevision words.host
      let sel := fun (r : Route) => ({
        circuit := c, trail := trailOf ((rr.recWords ++ [data]).getD 0 0), head := nodeAt r.expected 1, spans := r.spanList
        revision := rev } : Selected)
      let request := hostRequest words.host
      let rel := if request = .active then Release.none else if request = .recall then .toReleased else .toIgnored
      let released := setMapEntry c { e with release := rel } s.portFreed
      ∃ u, exec (.routeReadDone data) s = .next (settle u) ∧ kept u ∧
        (disturbed = true → u.mapEntry c = e ∧ again u) ∧
        (disturbed = false →
          (∀ r, e.engine = .watched → route = some r → u = ends (.watched (sel r)) s.portFreed) ∧
          (∀ r, e.engine = .claimed → route = some r → u = ends (.claimed (sel r)) released) ∧
          (e.engine = .claimed → route = none → u = ends .unusable released) ∧
          (∀ r, e.engine ≠ .watched → e.engine ≠ .claimed → route = some r →
            u.mapEntry c = { e with engine := .watched, release := .none } ∧
            u.custody.action = act (.writing (.finish (.watched (sel r)))) ∧
            u.queue .custody = s.queue .custody ++
              (if rev = bits words.captured 15 0 then [] else [write 0x14 0 .plain, write 0x10 (field rev 16 0) .plain]) ++
              [write 0x0C (engineWord .watched e.lastVerdict e.lastCampaign) .actionEnd]) ∧
          (e.engine ≠ .claimed → route = none →
            u.mapEntry c = { engine := .rejected, lastVerdict := Verdict.routeInvalid.code, lastCampaign := id } ∧
            u.custody.action = act (.writing (.journal rev .routeInvalid (baselineOfWord words.baseline) [id] .rejected)) ∧
            u.queue .custody = s.queue .custody ++
              [write 0x10 (field rev 16 0) .plain,
                write 0x0C (engineWord .rejected Verdict.routeInvalid.code id) .actionEnd])))) ∧
  (∀ (data : Word) (s : State) (r : Requester) (x : Access) (a : Action) (i : Fin 8) (id c : Nat) (live : Bool) (o : SelectOutcome),
    s.master.port = some (r, x) → x.tag = .actionEnd → s.custody.action = some a → a.req = .select i id c live →
    a.phase = .writing (.finish o) →
    let t := setAction none (endAccess x s)
    exec (.memoryAccessDone data) s = .next (settle (if live then stepOutcome i o t else t)))

/-- R17 R111 R112 R125 R119 R120: the Comparator's custody action for its item in hand. When its record reads return (log entry 3) the
pending release of the CLAIMED circuit follows the request, and the Comparator keeps request, revision and baseline. An outcome item goes to
WRITING with the entry's outcome as its verdict, an echo of another revision than the entry's with EDITED; an echo of the entry's revision
has the route read. When the route has been read, a valid one is kept and the Comparator is ALIGNING, an invalid one gives ROUTE_INVALID and
WRITING. Such a verdict has no findings, path loss 0 not complete and the baseline unchanged; its engine state is the pending release's,
else REJECTED for EDITED and ROUTE_INVALID and WATCHED otherwise; the first of its writes is handed over (one at a time: log entry 17): the
captured revision at REJECTED, else the path loss; the rest follow one by one (EngineWordWrittenHandsTheVerdict says how). Nothing outside
the Custody Unit, the Comparator and that access changes. -/
def Obligations.ComparisonActionsDecideTheNextPhase : Prop :=
  ∀ (data : Word) (s : State) (i : Fin 64) (evidence : Evidence),
    let x := s.entry i
    let c := x.circuit
    let e := s.mapEntry c
    s.cmp.item = some ⟨i, evidence⟩ → e.engine = .claimed →
    let kept := fun (u : State) =>
      u = { s.portFreed with custody := { s.custody with map := u.custody.map, action := u.custody.action }, cmp := u.cmp, master := u.master } ∧
      (settle u).hostSide = s.hostSide ∧ (∀ a, readByte (settle u).memory a = readByte s.memory a) ∧
      (∀ d, d ≠ c → u.mapEntry d = s.mapEntry d) ∧ (∀ q, q ≠ .custody → u.queue q = s.queue q)
    let act := fun (p : ActionPhase) => some ({ req := .compare i c, phase := p } : Action)
    let writes := fun (u : State) (v : Verdict) (rel : Release) (was : Comparator) =>
      let engine := if rel = .toReleased then EngineState.released else if rel = .toIgnored then .ignored
        else if v = .edited ∨ v = .routeInvalid then .rejected else .watched
      u.cmp = { was with
        phase := .writing
        result := some { verdict := v, findings := [], worst := 0, loss := 0, complete := false
                         baselineAfter := was.baseline, engine := engine }
        writes := (if engine = .rejected then [.captured] else []) ++ [.loss, .time, .engine] } ∧
      u.custody.action = act .comparing ∧
      u.queue .custody = s.queue .custody ++
        [if engine = .rejected then ⟨recordAddr s c 0x10, some (field was.revision 16 0), .cmpWrite⟩
          else ⟨recordAddr s c 0x18, some 0, .cmpWrite⟩]
    (∀ got, s.readsWith .record → s.custody.action = some { req := .compare i c, phase := .reading got } → got.length = 5 →
      let words := recordWords (got ++ [data])
      let req := hostRequest words.host
      let rev := hostRevision words.host
      let rel := if req = .active then Release.none else if req = .recall then .toReleased else .toIgnored
      let was := { s.cmp with request := req, revision := rev, baseline := baselineOfWord words.baseline }
      ∃ u, exec (.hostWordReadDone data) s = .next (settle u) ∧ kept u ∧ u.mapEntry c = { e with release := rel } ∧
        (evidence = .outcome .noEcho → writes u .noEcho rel was) ∧
        (evidence = .outcome .notTested → writes u .notTested rel was) ∧
        (∀ echo, evidence = .echo echo → rev ≠ x.revision → writes u .edited rel was) ∧
        (∀ echo, evidence = .echo echo → rev = x.revision → u.cmp = was ∧ u.custody.action = act (.routing words {}) ∧
          u.queue .custody = s.queue .custody ++ [⟨recordAddr s c 0x04, none, .route⟩])) ∧
    (∀ words rr route, s.readsWith .route → s.custody.action = some { req := .compare i c, phase := .routing words rr } →
      routeAdvance s c rr data = .done route →
      ∃ u, exec (.routeReadDone data) s = .next (settle u) ∧ kept u ∧ u.mapEntry c = e ∧
        (∀ r, route = some r → u.cmp = { s.cmp with phase := .aligning, route := some r } ∧
          u.custody.action = act .comparing ∧ u.queue .custody = s.queue .custody) ∧
        (route = none → writes u .routeInvalid e.release s.cmp))

/-- R8 R9 R5 R6 R7: every route a route read finds valid meets the checks of the table: 2 to 32 HOPs, nodes, losses and channels in range,
the first and last HOPs STAMPING, span 4095 at the last HOP and at no other, no node at two STAMPING hops; so its span list holds 1 to 31
spans and its expected sequence at least two hops. Its words are HOP and ATTRIBUTE words of a legal channel up to an END, each HOP under the
attributes in force. Every run of such words whose HOPs meet the checks is found valid at its END, and at no word before it. At the last
word that the route length allows the read is decided. The read takes the record words 0x04 and 0x08; where the length, the pool bound or
the start channel fails the route is invalid and no route word is read, otherwise route words are read from the offset on, the low word and
then the high word, until one decides the route. -/
def Obligations.RouteReadFollowsTheChecks : Prop :=
  (let hopsOf := fun (attr : Attr) (words : List RouteWord) =>
      (words.foldl (fun (p : Attr × List Hop) w =>
        if routeBits w 1 0 = 2 then (attrOfWord w, p.2) else (p.1, p.2 ++ [hopOfWord p.1 w])) (attr, [])).2
   let known := fun (words : List RouteWord) =>
      ∀ w ∈ words, routeBits w 1 0 = 1 ∨ (routeBits w 1 0 = 2 ∧ channelOk (attrOfWord w).channel = true)
   (∀ (w4 w8 : Word) (length : Nat) (words : List RouteWord) (r : Route),
    channelOk (startAttr w4 w8).channel = true → routeStatus (startAttr w4 w8) length words = .valid r →
    2 ≤ r.hops.length ∧ r.hops.length ≤ 32 ∧
    (∀ h ∈ r.hops, h.node ≤ 1023 ∧ h.spanLoss ≤ 5000 ∧ h.hopLoss ≤ 2000 ∧ channelOk h.attr.channel = true) ∧
    (∀ h, r.hops.head? = some h → h.attr.stamping = true) ∧
    (∀ h, r.hops.getLast? = some h → h.attr.stamping = true ∧ h.span = 4095) ∧
    (∀ x ∈ r.spanList, x ≠ 4095) ∧ (r.expected.map (fun h => h.node)).Nodup ∧
    1 ≤ r.spanList.length ∧ r.spanList.length ≤ 31 ∧ 2 ≤ r.expected.length ∧
    ∃ before last rest, words = before ++ last :: rest ∧ known before ∧ routeBits last 1 0 = 3 ∧
      r.hops = hopsOf (startAttr w4 w8) before) ∧
   (∀ (attr : Attr) (length : Nat) (before : List RouteWord) (last : RouteWord),
    let hops := hopsOf attr before
    before.length < length → known before → routeBits last 1 0 = 3 → 2 ≤ hops.length → hops.length ≤ 32 →
    (∀ h ∈ hops, h.node ≤ 1023 ∧ h.spanLoss ≤ 5000 ∧ h.hopLoss ≤ 2000) → (∀ h, hops.head? = some h → h.attr.stamping = true) →
    (∀ h, hops.getLast? = some h → h.attr.stamping = true ∧ h.span = 4095) → (∀ h ∈ hops.dropLast, h.span ≠ 4095) →
    ((hops.filter (fun h => h.attr.stamping)).map (fun h => h.node)).Nodup →
    routeStatus attr length (before ++ [last]) = .valid ⟨hops⟩ ∧
    ∀ n, n ≤ before.length → ∃ a hs, routeStatus attr length (before.take n) = .more a hs)) ∧
  (∀ (attr : Attr) (length : Nat) (words : List RouteWord) (a : Attr) (hs : List Hop), length ≤ words.length →
    routeStatus attr length words ≠ .more a hs) ∧
  (∀ n : Nat, channelOk n = true ↔ n ≤ 95 ∨ n = 127) ∧
  (∀ (s : State) (c : Nat) (rr : RouteRead) (data : Word),
    let word := fun (k : Nat) => addrOf s.params.routePool (8 * k)
    (rr.recWords = [] → routeAdvance s c rr data = .read { rr with recWords := [data] } (recordAddr s c 0x08)) ∧
    (∀ w4, rr.recWords = [w4] →
      let offset := bits data 15 0
      let length := bits data 23 16
      let ok := 2 ≤ length ∧ length ≤ 48 ∧ offset + length ≤ s.params.poolSize ∧ (bits data 30 24 ≤ 95 ∨ bits data 30 24 = 127)
      (ok → routeAdvance s c rr data = .read { rr with recWords := [w4, data] } (word offset)) ∧
      (¬ ok → routeAdvance s c rr data = .done none)) ∧
    (∀ w4 w8 more, rr.recWords = w4 :: w8 :: more →
      let k := bits w8 15 0 + rr.words.length
      (rr.low = none → routeAdvance s c rr data = .read { rr with low := some data } (word k + 4)) ∧
      (∀ lo : Word, rr.low = some lo →
        let words := rr.words ++ [(data ++ lo : RouteWord)]
        let status := routeStatus (startAttr w4 w8) (bits w8 23 16) words
        (∀ a hs, status = .more a hs → routeAdvance s c rr data = .read { rr with low := none, words := words } (word (k + 1))) ∧
        (status = .invalid → routeAdvance s c rr data = .done none) ∧
        (∀ r, status = .valid r → routeAdvance s c rr data = .done (some r)))))

/-! ### The Comparator and the loss arithmetic (chapters 6 and 7) -/

/-- R108 R109 R111 R81 R82 R105 R125: the takes of the Comparator. It takes only in RUNNING and IDLE, from the source that holds items, and
where both do from the one it did not serve last; taking from a source makes it the one served last. An echo matches the entry its tag names
where generation and trail label agree and the entry is WAITING, BACKOFF, or QUEUED with an attempt made: the entry becomes COMPARING,
leaving its queue, and the Comparator is in CUSTODY with it and the echo in hand, its custody action asked for. Any other echo is stale: it
is counted on its receiving link and discarded, no entry changes, and the Comparator, IDLE still, takes again (log entry 24). An outcome
item is the head of the Outcome List with the outcome it was concluded with, taken the same way. -/
def Obligations.ComparatorTakesItems : Prop :=
  ∀ (s : State),
    let holds := fun (t : State) (i : Fin 64) (ev : Evidence) (last : Bool) =>
      let x := s.entry i
      t = { s with cmp := t.cmp, probes := t.probes, custody := t.custody, fifo := t.fifo } ∧
      t.cmp = { s.cmp with phase := .custody, item := some ⟨i, ev⟩, lastOutcome := last } ∧
      t.entry i = { x with state := .comparing, timer := none, outcome := none } ∧ (∀ j, j ≠ i → t.entry j = s.entry j) ∧
      t.custody = { s.custody with queue := s.custody.queue ++ [(s.eventNo, .compare i x.circuit)] } ∧
      (x.state ≠ .queued → t.probes.scheds = s.probes.scheds) ∧
      (x.state = .queued → (t.launchSched x.link).queueOf x.cls = ((s.launchSched x.link).queueOf x.cls).erase i ∧
        (t.launchSched x.link).queueOf x.cls.other = (s.launchSched x.link).queueOf x.cls.other ∧
        ∀ k, k ≠ x.link → t.launchSched k = s.launchSched k)
    (s.run ≠ .running ∨ s.cmp.phase ≠ .idle ∨ (s.fifo = [] ∧ s.probes.outcomes = []) → serveComparator s = s) ∧
    (s.run = .running → s.cmp.phase = .idle → serveComparator s = takeLoop s.fifo.length (takeOne s)) ∧
    (∀ e rest, s.fifo = e :: rest → s.probes.outcomes = [] ∨ s.cmp.lastOutcome = true →
      let x := s.entry (tagSlot e.tag)
      let t := takeOne s
      let fits := x.generation = e.tag / 64 ∧ x.trail = e.trail ∧
        (x.state = .waiting ∨ x.state = .backoff ∨ (x.state = .queued ∧ 1 ≤ x.attempts))
      (tagSlot e.tag).val = e.tag % 64 ∧ t.fifo = rest ∧ t.probes.outcomes = s.probes.outcomes ∧
      (fits → holds t (tagSlot e.tag) (.echo e) false) ∧
      (¬ fits → t = { s with fifo := rest, cmp := { s.cmp with lastOutcome := false }, links := t.links } ∧
        t.link e.link = { s.link e.link with
          counters := { (s.link e.link).counters with stale := min ((s.link e.link).counters.stale + 1) 4294967295 } } ∧
        (∀ k, k ≠ e.link → t.link k = s.link k))) ∧
    (∀ i rest o, s.probes.outcomes = i :: rest → s.fifo = [] ∨ s.cmp.lastOutcome = false → (s.entry i).outcome = some o →
      let t := takeOne s
      t.fifo = s.fifo ∧ t.probes.outcomes = rest ∧ holds t i (.outcome o) true)

/-- R143 R120 R119: the arithmetic on the item in hand ends: the Comparator enters WRITING with the comparison of the echo, the route and
the held parameters as its result, the new engine state WATCHED, RELEASED or IGNORED by the pending release in force, and hands over the
first write: the baseline if the arithmetic changed it, else the last path loss (one write at a time: log entry 17;
EngineWordWrittenHandsTheVerdict says how the rest follow). Nothing outside the Comparator, the custody action and the Custody Unit's queue
changes, and no byte of memory. -/
def Obligations.ArithmeticEndsInWriting : Prop :=
  ∀ (s : State) (i : Fin 64) (e : Echo) (r : Route),
    s.run = .running ∨ s.run = .stopping → s.cmp.phase = .aligning → s.cmp.item = some ⟨i, .echo e⟩ → s.cmp.route = some r →
    let c := (s.entry i).circuit
    let raw := compareEcho s.params r e s.cmp.baseline
    let result := { raw with engine := engineAfter raw.verdict (s.mapEntry c).release }
    ∃ u, exec .alignmentDone s = .next (settle u) ∧
      u = { s with cmp := u.cmp, custody := { s.custody with action := u.custody.action }, master := u.master } ∧
      u.cmp = { s.cmp with
        phase := .writing, result := some result
        writes := (if raw.baselineAfter ≠ s.cmp.baseline then [.baseline] else []) ++
          (if result.engine = .rejected then [.captured] else []) ++ [.loss, .time, .engine] } ∧
      result.engine ≠ .rejected ∧
      (raw.baselineAfter ≠ s.cmp.baseline → u.queue .custody = s.queue .custody ++
        [⟨recordAddr s c 0x14, some (baselineWord raw.baselineAfter), .cmpWrite⟩]) ∧
      (raw.baselineAfter = s.cmp.baseline → u.queue .custody = s.queue .custody ++
        [⟨recordAddr s c 0x18, some (lossWord raw.loss raw.complete), .cmpWrite⟩]) ∧
      (settle u).hostSide = s.hostSide ∧ (∀ a, readByte (settle u).memory a = readByte s.memory a)

/-- R113 R114 R115: an echo whose stamps repeat the expected sequence (nodes, ports, channels; channel 127 matches any) is matched hop
for hop, the stamping nodes being distinct: every pair (k, k) in order, no alignment finding, whatever its flags. -/
def Obligations.MatchingEchoGivesNoAlignmentFinding : Prop :=
  ∀ (expected : List Hop) (e : Echo), (expected.map (fun h => h.node)).Nodup → e.stamps.length = expected.length →
    (∀ (k : Nat) (h : Hop) (o : Stamp), expected[k]? = some h → e.stamps[k]? = some o → o.node = h.node ∧ o.ingress = h.ingress ∧ o.egress = h.egress ∧
      (o.channel = h.attr.channel ∨ o.channel = 127 ∨ h.attr.channel = 127)) →
    (align expected e).findings = [] ∧ (align expected e).i = expected.length + 1 ∧
    (align expected e).pairs = (List.range expected.length).map (fun k => (k + 1, k + 1))

/-- R118: the verdict of an aligned echo by rank, from its full findings list and its flags: a misroute finding decides first, then a
BREAK, then OVERFLOW with the walk ended at i ≤ n, then a loss finding, else CONTINUOUS; UNMEASURED findings do not enter it, and a
CONTINUOUS verdict means that the walk matched e_n. -/
def Obligations.VerdictTakesTheFirstRowThatApplies : Prop :=
  ∀ (p : Params) (r : Route) (e : Echo) (before : Option Int),
    let c := compareEcho p r e before
    let has := fun (kinds : List FindingKind) => ∃ f ∈ c.findings, f.kind ∈ kinds
    let misroute := has [.missing, .foreign, .port, .channel, .loop]
    let cut := e.overflow = true ∧ (align r.expected e).i ≤ r.expected.length
    (misroute → c.verdict = .misrouted) ∧
    (¬ misroute → has [.brk] → c.verdict = .broken) ∧
    (¬ misroute → ¬ has [.brk] → cut → c.verdict = .incomplete) ∧
    (¬ misroute → ¬ has [.brk] → ¬ cut → has [.lossHigh, .lossLow, .drift] → c.verdict = .degraded) ∧
    (¬ misroute → ¬ has [.brk] → ¬ cut → ¬ has [.lossHigh, .lossLow, .drift] → c.verdict = .continuous) ∧
    (c.verdict = .continuous → r.expected.length < (align r.expected e).i)

/-- R131 R132 R133 R134 R135 R136 R137 R138: a segment's expected loss is the sum of its spans' losses and of its passive hops' losses. A
segment counts where its two ends stand as consecutive pairs of the match list at consecutive stamps. Without the far hop's loss check it
gives nothing; with the near stamp's transmit power or the far stamp's receive power unknown it gives UNMEASURED, detail 1, 2 or 3;
otherwise it is measured: measured loss transmit less receive, deviation the measured less the expected loss, within −7500..7500 and
−222500..7500 for known powers, LOSS_HIGH above the upper tolerance of the far hop's class and LOSS_LOW below the lower one, the detail
saturated, the greatest deviation by amount kept, the first of equal ones, and the saturated path loss rising by the measured loss. A
comparison starts from nothing and goes through the pairs in order; its path loss, worst deviation (saturated) and loss findings are
these. -/
def Obligations.SegmentLossesGiveTheFindings : Prop :=
  (∀ g : Segment, g.expectedLoss = ((g.spanLosses.sum + g.passiveLosses.sum : Nat) : Int)) ∧
  (∀ (tols : Vector Tolerance 8) (h : Hop) (g : Segment) (near far : Stamp) (a x : Nat) (acc : LossAcc),
    let t := lossSegment tols h g near far a x acc
    let tol := tols.get (Fin.ofNat 8 h.attr.tolClass)
    let l := near.tx - far.rx
    let d := l - g.expectedLoss
    let unknown := near.tx = -32768 ∨ far.rx = -32768
    (h.attr.lossCheck = false → t = acc) ∧
    (h.attr.lossCheck = true → unknown → ∃ code : Int,
      t = { acc with findings := acc.findings ++ [⟨.unmeasured, a + 1, x + 1, h.node, code⟩] } ∧
      (far.rx ≠ -32768 → code = 1) ∧ (near.tx ≠ -32768 → code = 2) ∧ (near.tx = -32768 → far.rx = -32768 → code = 3)) ∧
    (h.attr.lossCheck = true → ¬ unknown →
      t.measured = acc.measured + 1 ∧ t.loss = max (-32767) (min 32767 (acc.loss + l)) ∧
      (-5000 ≤ near.tx → near.tx ≤ 2500 → -5000 ≤ far.rx → far.rx ≤ 2500 →
        -7500 ≤ l ∧ l ≤ 7500 ∧ (g.expectedLoss ≤ 215000 → -222500 ≤ d ∧ d ≤ 7500)) ∧
      (acc.worst.natAbs < d.natAbs → t.worst = d) ∧ (d.natAbs ≤ acc.worst.natAbs → t.worst = acc.worst) ∧
      ((tol.upper : Int) < d →
        t.findings = acc.findings ++ [⟨.lossHigh, a + 1, x + 1, h.node, max (-32767) (min 32767 d)⟩]) ∧
      (d < -(tol.lower : Int) → d ≤ (tol.upper : Int) →
        t.findings = acc.findings ++ [⟨.lossLow, a + 1, x + 1, h.node, max (-32767) (min 32767 d)⟩]) ∧
      (-(tol.lower : Int) ≤ d → d ≤ (tol.upper : Int) → t.findings = acc.findings))) ∧
  (∀ (tols : Vector Tolerance 8) (exp : List Hop) (segs : List Segment) (stamps : List Stamp) (acc : LossAcc),
    lossPairs tols exp segs stamps [] acc = acc ∧ (∀ p, lossPairs tols exp segs stamps [p] acc = acc) ∧
    (∀ a x b y rest,
      (¬ (b = a + 1 ∧ y = x + 1) →
        lossPairs tols exp segs stamps ((a, x) :: (b, y) :: rest) acc = lossPairs tols exp segs stamps ((b, y) :: rest) acc) ∧
      (∀ h g near far, b = a + 1 → y = x + 1 → exp[a]? = some h → segs[a - 1]? = some g → stamps[x - 1]? = some near →
        stamps[x]? = some far →
        lossPairs tols exp segs stamps ((a, x) :: (b, y) :: rest) acc =
          lossPairs tols exp segs stamps ((b, y) :: rest) (lossSegment tols h g near far a x acc)))) ∧
  (∀ (p : Params) (r : Route) (e : Echo) (before : Option Int),
    let w := align r.expected e
    let acc := lossPairs p.tolerance r.expected r.segments e.stamps w.pairs {}
    let c := compareEcho p r e before
    c.loss = acc.loss ∧ c.worst = max (-32767) (min 32767 acc.worst) ∧
    ∃ drift, c.findings = w.findings ++ acc.findings ++ drift ∧ drift.length ≤ 1 ∧ ∀ f ∈ drift, f.kind = .drift)

/-- R138 R139 R140 R141 R142: the path loss of every comparison lies in −32767..32767. It is complete exactly when all n − 1 segments were
measured and the verdict before the drift check, on the findings of the walk and of the segments, is CONTINUOUS; the baseline changes only
then: a first baseline is the path loss, and a later one moves an eighth of the drift towards the path loss, truncated towards zero, so that
it lies between the two, and stays where the drift exceeds the limit, when the verdict is DEGRADED. -/
def Obligations.BaselineMovesTowardsACompletePathLoss : Prop :=
  ∀ (p : Params) (r : Route) (e : Echo) (before : Option Int),
    let c := compareEcho p r e before
    let w := align r.expected e
    let acc := lossPairs p.tolerance r.expected r.segments e.stamps w.pairs {}
    let verdict := verdictOf (w.findings ++ acc.findings) (e.overflow && decide (w.i ≤ r.expected.length))
    (c.complete = true ↔ acc.measured = r.expected.length - 1 ∧ verdict = .continuous) ∧
    (-32767 ≤ c.loss ∧ c.loss ≤ 32767) ∧
    (c.complete = false → c.baselineAfter = before) ∧
    (c.complete = true → before = none → c.baselineAfter = some c.loss ∧ c.verdict = .continuous) ∧
    (∀ b, c.complete = true → before = some b → -32767 ≤ b → b ≤ 32767 →
      ((p.driftLimit : Int) < ((c.loss - b).natAbs : Int) → c.baselineAfter = some b ∧ c.verdict = .degraded) ∧
      (((c.loss - b).natAbs : Int) ≤ p.driftLimit → c.verdict = .continuous ∧
        c.baselineAfter = some (b + (c.loss - b).tdiv 8) ∧
        min b c.loss ≤ b + (c.loss - b).tdiv 8 ∧ b + (c.loss - b).tdiv 8 ≤ max b c.loss))

/-- R120 R121 R122 R123 R3: the response of each write of a comparison hands over the next one (one at a time: log entry 17), its value
formed at that event (log entry 7): the captured revision, the path loss with its complete flag, NET_TIME as the last verified time, and the
engine word with the new state, the verdict and the owner's campaign id. The engine-word write of a comparison has reached memory: the map
entry keeps the word's verdict and campaign id, the VERDICT entry is formed with NET_TIME at that event as its time (log entry 7) and
offered to the Journal Writer, and the Comparator is HANDED; only the word's four bytes of memory change. The entry's words: circuit and
revision; verdict, new engine state, path complete, the echo's flags, attempts; the time; the echo's stamp count, findings kept and dropped;
path loss and worst deviation; baseline before and after; the number of campaign ids, and the ids, the owner first and then the joiners in
slot order; three words of 0; the first sixteen findings. An outcome item has no flags and no stamps. -/
def Obligations.EngineWordWrittenHandsTheVerdict : Prop :=
  (∀ (data : Word) (s : State) (r : Requester) (x : Access) (item : Item) (result : CmpResult),
    s.master.port = some (r, x) → x.tag = .cmpEngine → s.cmp.item = some item → s.cmp.result = some result →
    let c := (s.entry item.entry).circuit
    let owner := (s.campaign (s.entry item.entry).owner).id
    ∃ u, exec (.engineWordWritten data) s = .next (settle u) ∧
      u = { endAccess x s with custody := { s.custody with map := u.custody.map }, cmp := u.cmp, journal := u.journal } ∧
      u.mapEntry c = { s.mapEntry c with lastVerdict := result.verdict.code, lastCampaign := owner } ∧
      (∀ d, d ≠ c → u.mapEntry d = s.mapEntry d) ∧
      u.cmp = { s.cmp with phase := .handed, writes := [] } ∧
      u.journal = { s.journal with cmpOffer := some (cmpVerdictEntry s item result) } ∧
      (let x := s.entry item.entry
       let b := fun (y : Option Int) => field (unsigned16 (y.getD (-32768)))
       let ids := owner :: x.joiners.map (fun j => (s.campaign j).id)
       let byte := fun (n lo : Nat) => field (ids.getD n 0) 8 lo
       let kept := result.findings.take 16
       let body := fun (brk overflow : Bool) (stamps : Nat) =>
         [field x.circuit 16 0 ||| field s.cmp.revision 16 16,
          field result.verdict.code 8 0 ||| field result.engine.code 8 8 ||| field result.complete.toNat 1 16 |||
            field brk.toNat 1 17 ||| field overflow.toNat 1 18 ||| field x.attempts 8 24,
          s.clock.netTime,
          field stamps 8 0 ||| field kept.length 8 8 ||| field (min (result.findings.length - 16) 65535) 16 16,
          field (unsigned16 result.loss) 16 0 ||| field (unsigned16 result.worst) 16 16,
          b s.cmp.baseline 16 0 ||| b result.baselineAfter 16 16, field ids.length 4 0,
          byte 0 0 ||| byte 1 8 ||| byte 2 16 ||| byte 3 24, byte 4 0 ||| byte 5 8 ||| byte 6 16 ||| byte 7 24, 0, 0, 0] ++
         kept.flatMap (fun f => [field f.kind.code 8 0 ||| field f.routePos 8 8 ||| field f.stampPos 8 16,
           field f.node 16 0 ||| field (unsigned16 f.detail) 16 16])
       (∀ e, item.evidence = .echo e → (cmpVerdictEntry s item result).body = body e.brk e.overflow e.stamps.length) ∧
       (∀ o, item.evidence = .outcome o → (cmpVerdictEntry s item result).body = body false false 0)) ∧
      (cmpVerdictEntry s item result).kind = 1 ∧
      (cmpVerdictEntry s item result).bytes = 56 + 8 * min 16 result.findings.length ∧
      (∀ a, s.outsidePort a → readByte (settle u).memory a = readByte s.memory a)) ∧
  (∀ (data : Word) (s : State) (r : Requester) (x : Access) (item : Item) (result : CmpResult) (done next : CmpWrite) (rest : List CmpWrite),
    s.master.port = some (r, x) → x.tag = .cmpWrite → s.cmp.item = some item → s.cmp.result = some result →
    s.cmp.writes = done :: next :: rest →
    let owner := (s.campaign (s.entry item.entry).owner).id
    let write := fun (o : Nat) (w : Word) (tag : Tag) => (⟨recordAddr s (s.entry item.entry).circuit o, some w, tag⟩ : Access)
    ∃ u, exec (.memoryAccessDone data) s = .next (settle u) ∧
      u = { endAccess x s with cmp := { s.cmp with writes := next :: rest }, master := u.master } ∧ u.master.port = none ∧
      (∀ q, q ≠ .custody → u.queue q = s.queue q) ∧
      u.queue .custody = s.queue .custody ++ [
        if next = .baseline then write 0x14 (baselineWord result.baselineAfter) .cmpWrite
        else if next = .captured then write 0x10 (field s.cmp.revision 16 0) .cmpWrite
        else if next = .loss then write 0x18 (field (unsigned16 result.loss) 16 0 ||| field result.complete.toNat 1 16) .cmpWrite
        else if next = .time then write 0x1C s.clock.netTime .cmpWrite
        else write 0x0C (field result.engine.code 3 0 ||| field result.verdict.code 4 4 ||| field owner 8 8) .cmpEngine] ∧
      (∀ a, s.outsidePort a → readByte (settle u).memory a = readByte s.memory a))

/-! ### The journal (08 R145 to R156) -/

/-- R145 R149 R148 R150 R155: the placement test on an entry of n bytes. A placed entry lies whole between its start and S and, with the
bytes its WRAP skips, in the bytes after w that are not unread; the write offset after it is a multiple of 8 below S, the unread amount
rises by exactly the bytes taken and stays at most S − 8. A stall is where neither test holds, and an entry of at most 184 bytes never
stalls with nothing unread. The bytes are handed over together, in order (log entry 17): the WRAP header where there is one, then the
entry's words in ascending offset. The idle Journal Writer takes, in RUNNING, STOPPING and LOADING after its journal step, the entry of the
first source that offers one in the cyclic order Comparator, Custody Unit, Campaign Controller after the source it served last, which is
then the one served. An entry with room is WRITING; one without is STALLED with JOURNAL_STALL set, but in STOPPING it is abandoned, its
source is told, and the Journal Writer takes again, whatever was stalled at the halt (log entry 27). -/
def Obligations.PlacedEntryLiesInTheFreeBytes : Prop :=
  (∀ (s : State) (e : JournalEntry), s.journal.geometry → e.body.length % 2 = 0 →
    let j := s.journal
    let n := e.bytes
    let p := placement j n
    let after := { j with w := offsetAfter j n p }
    let unread := fun o => ringDistance j.size o j.m < j.unread
    let words := fun (start : Nat) (ws : List Word) =>
      ws.zipIdx.map (fun x => (addrOf j.base (start + 4 * x.2), some x.1))
    let handed := (writeEntry p e s).queue .journal
    (p = .straight → j.w + n ≤ j.size ∧ (∀ o, j.w ≤ o → o < j.w + n → ¬ unread o) ∧ after.unread = j.unread + n ∧
      handed.map (fun a => (a.addr, a.write)) = (s.queue .journal).map (fun a => (a.addr, a.write)) ++ words j.w (e.words j.seq)) ∧
    (p = .wrap → j.w + 8 ≤ j.size ∧ n < j.w ∧ (∀ o, o < j.size → (o < n ∨ j.w ≤ o) → ¬ unread o) ∧
      after.unread = j.unread + (j.size - j.w) + n ∧
      handed.map (fun a => (a.addr, a.write)) =
        (s.queue .journal).map (fun a => (a.addr, a.write)) ++ words j.w wrapWords ++ words 0 (e.words j.seq)) ∧
    (p ≠ .stall → after.geometry ∧ after.unread ≤ j.size - 8) ∧
    (p = .stall ↔ ¬ (j.w + n ≤ j.size ∧ n ≤ j.free) ∧ ¬ (j.size < j.w + n ∧ (j.size - j.w) + n ≤ j.free)) ∧
    (n ≤ 184 → j.unread = 0 → p ≠ .stall)) ∧
  (∀ (s : State),
    let j := s.journal
    let takes := s.run = .running ∨ s.run = .stopping ∨
      (s.run = .loading ∧ (s.loader.step = .windows ∨ s.loader.step = .custody))
    (j.phase ≠ .idle ∨ ¬ takes ∨ (∀ src, j.offer src = none) → serveJournal s = s) ∧
    (∀ src e before after, j.phase = .idle → takes → sourcesAfter j.served = before ++ src :: after →
      (∀ x ∈ before, j.offer x = none) → j.offer src = some e →
      let t := takeEntry s
      let taken := { j.clearOffer src with hand := some (src, e), served := src }
      let p := placement j e.bytes
      serveJournal s = serveJournalLoop 2 t ∧
      (p ≠ .stall → t = writeEntry p e { s with journal := taken } ∧ serveJournal s = t ∧
        t.journal = { taken with phase := .writing, nextW := offsetAfter j e.bytes p }) ∧
      (p = .stall → s.run ≠ .stopping → serveJournal s = t ∧ t.hasEvent .journalStall = true ∧
        t = { s with journal := { taken with phase := .stalled }, regs := { s.regs with events := t.regs.events } } ∧
        (∀ x, x ≠ .journalStall → t.hasEvent x = s.hasEvent x)) ∧
      (p = .stall → s.run = .stopping →
        t = { s with journal := { taken with hand := none }, custody := t.custody, ctrl := t.ctrl, cmp := t.cmp, master := t.master } ∧
        (src = .comparator → t.cmp = { lastOutcome := s.cmp.lastOutcome } ∧ t.ctrl = s.ctrl ∧
          t.custody = { s.custody with action := none }) ∧
        (src = .campaign → t.ctrl = { s.ctrl with offer := none } ∧ t.cmp = s.cmp ∧ t.custody = s.custody) ∧
        (src = .custody → t = custodyEntryDone { s with journal := { taken with hand := none } } ∧ t.cmp = s.cmp)))) ∧
  sourcesAfter .comparator = [.custody, .campaign, .comparator] ∧ sourcesAfter .custody = [.campaign, .comparator, .custody] ∧
  sourcesAfter .campaign = [.comparator, .custody, .campaign]

/-- R149 R147 R123 R67 R61 R14: the last byte of the entry in hand has reached memory: w takes its new value, the sequence counter advances
by one, the read mark stays, JOURNAL_NEW is set, the write of the new w into the Status Area (log entry 23) is handed over, the Journal
Writer is IDLE with nothing in hand, and the source is told: for the Comparator its item is finished, its verdict counted by owner and
joiners, the entry FREE and its circuit out of CLAIMED, for the Campaign Controller the slot is FREE and CAMPAIGN_DONE set, for the Custody
Unit the action that waits for its entry ends with its outcome. No byte of memory but the word written changes. -/
def Obligations.JournalEntryWrittenAdvancesTheJournal : Prop :=
  ∀ (data : Word) (s : State) (r : Requester) (x : Access) (src : Source) (e : JournalEntry),
    s.master.port = some (r, x) → x.tag = .journalEnd → s.journal.hand = some (src, e) →
    let told := setEvent .journalNew { endAccess x s with
      journal := { s.journal with w := s.journal.nextW, seq := s.journal.seq + 1, phase := .idle, hand := none } }
    ∃ u, exec (.journalEntryWritten data) s = .next (settle u) ∧
      u.journal = { s.journal with w := s.journal.nextW, seq := s.journal.seq + 1, phase := .idle, hand := none } ∧
      (settle u).journal.ring = { s.journal.ring with w := s.journal.nextW, seq := s.journal.seq + 1 } ∧
      u.hasEvent .journalNew = true ∧
      u.queue .journal =
        s.queue .journal ++ [⟨addrOf s.params.controlBlock 0x104, some (BitVec.ofNat 32 s.journal.nextW), .plain⟩] ∧
      (src = .comparator → ∀ item result, s.cmp.item = some item → s.cmp.result = some result →
        u = { endAccess x s with
          ctrl := u.ctrl, probes := u.probes, custody := u.custody, cmp := u.cmp, journal := u.journal, regs := u.regs
          master := u.master } ∧
        u.ctrl = (verdictWritten told).ctrl ∧ u.probes = (verdictWritten told).probes ∧
        u.custody = (verdictWritten told).custody ∧
        u.cmp = { lastOutcome := s.cmp.lastOutcome } ∧ u.custody.action = none ∧
        u.entry item.entry = { generation := (s.entry item.entry).generation } ∧ (∀ i, i ≠ item.entry → u.entry i = s.entry i)) ∧
      (src = .campaign → ∀ i, s.ctrl.offer = some i →
        u = { endAccess x s with
          ctrl := u.ctrl, sched := u.sched, journal := u.journal, regs := u.regs, master := u.master } ∧
        u.campaign i = {} ∧ u.ctrl.offer = none ∧ u.hasEvent .campaignDone = true ∧ (∀ k, k ≠ i → u.campaign k = s.campaign k)) ∧
      (src = .custody → ∀ a o c, s.custody.action = some a → a.phase = .entry o →
        (a.req = .load c → s.run ≠ .loading → u.custody = { s.custody with action := none }) ∧
        (a.req = .load c → let t := loadNext (setAction none told)
          u.custody = t.custody ∧ u.loader = t.loader ∧ u.reader = t.reader ∧ u.regs = t.regs) ∧
        (a.req = .sweep c → let t := sweepNext (setAction none told)
          u.custody = t.custody ∧ u.reader = t.reader ∧ u.sched = t.sched) ∧
        (∀ i id live, a.req = .select i id c live →
          u.custody = (if live then (stepOutcome i o (setAction none told)).custody else { s.custody with action := none }) ∧
          u.ctrl = (if live then (stepOutcome i o (setAction none told)).ctrl else s.ctrl)) ∧
        (a.req = .sweep c → s.run = .running → s.reader.sweep = .custody → s.reader.circuit + 1 < s.params.circuitCount →
          u.custody = { s.custody with
            action := none, queue := s.custody.queue ++ [(s.eventNo, .sweep (s.reader.circuit + 1))] })) ∧
      (∀ a, s.outsidePort a → readByte (settle u).memory a = readByte s.memory a)

/-- R152 R151: a JOURNAL_MARK write, in every run state. The value rounded down to a multiple of 8 is taken where it lies in the unread
region, else m becomes w; w and the sequence counter stay. A stall in RUNNING, or in LOADING from the journal step on (log entry 18), makes
its placement again with the new m: an entry that fits is WRITING at the offset its placement gives, one that does not stays, with no second
JOURNAL_STALL; without a stall, and in every other run state or step, only m changes. -/
def Obligations.MarkWriteMovesTheReadMark : Prop :=
  ∀ (value : Word) (s : State), s.held = false → s.regs.select = 6 →
    let j := s.journal
    let v := value.toNat / 8 * 8
    let mark := if v < j.size ∧ (v + j.size - j.m) % j.size ≤ (j.w + j.size - j.m) % j.size then v else j.w
    let moved := { j with m := mark }
    ∃ u, exec (.journalMarkWrite value) s = .next (settle u) ∧
      (settle u).journal.ring = { j.ring with m := mark } ∧ u = { s with journal := u.journal, master := u.master } ∧
      (settle u).hostSide = s.hostSide ∧ (∀ a, readByte (settle u).memory a = readByte s.memory a) ∧
      (j.phase ≠ .stalled → u = { s with journal := moved }) ∧
      (s.run ≠ .running → ¬ (s.run = .loading ∧ (s.loader.step = .windows ∨ s.loader.step = .custody)) →
        u = { s with journal := moved }) ∧
      (∀ src e, s.run = .running ∨ (s.run = .loading ∧ (s.loader.step = .windows ∨ s.loader.step = .custody)) →
        j.phase = .stalled → j.hand = some (src, e) →
        (placement moved e.bytes = .stall → u = { s with journal := moved }) ∧
        (placement moved e.bytes ≠ .stall →
          u = writeEntry (placement moved e.bytes) e { s with journal := moved } ∧
          u.journal = { moved with phase := .writing, nextW := offsetAfter moved e.bytes (placement moved e.bytes) }))

/-! ### Polls, sweeps and requests (09 R157 to R167, 03 R46 to R64) -/

/-- R158 R160 R105 R70 R48: a poll in RUNNING, which POLL_TIMER_EXPIRY is whatever the count of its timer shows (log entry 11), restarts the
poll timer, hands out one read of the host epoch word, and hands out the Status Area writes in one fixed order for each owner (log entry
20), in the Control Block of the last load that passed its checks (log entry 23): the occupancy, the eight campaign slot words, and each
link's state and five counters. When the epoch read returns in RUNNING with another value than the last epoch, the last epoch takes it and
the poll is a trigger: it begins a sweep when the reader is IDLE (start time, POLL_NOW cleared, circuit 0 asked for), else sets the
sweep-pending flag. With the same value, or outside RUNNING, nothing follows. No byte of memory changes at either event. -/
def Obligations.PollReadsTheEpochAndTriggersOnChange : Prop :=
  ∀ (data : Word) (s : State),
    (s.run = .running → s.reader.pollTimer.isSome = true →
      let at' := fun (o : Nat) (w : Word) => (⟨addrOf s.params.controlBlock o, some w, .plain⟩ : Access)
      ∃ u, exec .pollTimerExpiry s = .next (settle u) ∧
        u = { s with reader := { s.reader with pollTimer := some (s.params.pollPeriod * 10) }, master := u.master } ∧
        u.queue .request = s.queue .request ++ [⟨addrOf s.params.controlBlock 0x084, none, .epoch⟩] ∧
        u.queue .probe = s.queue .probe ++ [at' 0x10C (BitVec.ofNat 32 s.occupancy)] ∧
        u.queue .campaign =
          s.queue .campaign ++ (List.finRange 8).map (fun i => at' (0x170 + 4 * i.val) (slotWord (s.campaign i))) ∧
        (∀ k : Fin 4, u.queue (.link k) = s.queue (.link k) ++
          [at' (0x110 + 24 * k.val) (field (s.link k).state.code 2 0),
            at' (0x114 + 24 * k.val) (BitVec.ofNat 32 (s.link k).counters.sent),
            at' (0x118 + 24 * k.val) (BitVec.ofNat 32 (s.link k).counters.accepted),
            at' (0x11C + 24 * k.val) (BitVec.ofNat 32 (s.link k).counters.rejected),
            at' (0x120 + 24 * k.val) (BitVec.ofNat 32 (s.link k).counters.dropped),
            at' (0x124 + 24 * k.val) (BitVec.ofNat 32 (s.link k).counters.stale)]) ∧
        (settle u).hostSide = s.hostSide ∧ (∀ a, readByte (settle u).memory a = readByte s.memory a)) ∧
    (s.readsWith .epoch → ∃ u, exec (.epochReadDone data) s = .next (settle u) ∧
      (settle u).hostSide = s.hostSide ∧ (∀ a, readByte (settle u).memory a = readByte s.memory a) ∧
      (s.run ≠ .running ∨ data = s.reader.lastEpoch → u = s.portFreed) ∧
      (s.run = .running → data ≠ s.reader.lastEpoch →
        (s.reader.sweep ≠ .idle →
          u = { s.portFreed with reader := { s.reader with lastEpoch := data, sweepPending := true } }) ∧
        (s.reader.sweep = .idle →
          u = { s.portFreed with
            regs := { s.regs with pollNow := false }
            reader := { s.reader with lastEpoch := data, sweep := .custody, sweepStart := s.clock.netTime, circuit := 0 }
            custody := { s.custody with queue := s.custody.queue ++ [(s.eventNo, .sweep 0)] } })))

/-- R163 R164 R165 R161 R160 R48 R49: the scan's control word returns. HOST ends the scan, as does ENGINE once slot count slots are
processed, which sets the sweep-pending flag: the last sweep time's write is handed over (log entry 23), and the sweep ends, or begins anew
where the flag is set, the next request index staying. Otherwise ENGINE has its first argument word read (one word at a time: log entry 3),
or is answered at once where its kind has none: VERIFY_ALL with STARTED and a campaign of span set ALL, its slot word handed over and its
first step asked for, or with NO_SLOT, any other code with BAD_ARGS; result word and hand-back are handed over together (log entry 17), the
owner HOST as code 0 (log entry 25). The hand-back's write has reached memory: REQUEST_DONE is set, the index advances to the next slot of
the ring, and in RUNNING the scan reads the control word there. -/
def Obligations.RequestScanTakesSlotsInRingOrder : Prop :=
  ∀ (data : Word) (s : State),
    let slot := fun (k o : Nat) => addrOf s.params.requestList (48 * k + o)
    let index := s.reader.nextIndex
    (s.readsWith .reqControl → s.reader.stage = .control →
      let engine := ownerIsEngine data = true
      let full := s.params.slotCount ≤ s.reader.processed
      let kind := requestKind data
      let ended : List Access := [⟨addrOf s.params.controlBlock 0x108, some s.reader.sweepStart, .plain⟩]
      ∃ u, exec (.requestControlReadDone data) s = .next (settle u) ∧ u.reader.nextIndex = index ∧
        u = { s.portFreed with reader := u.reader, master := u.master, custody := u.custody, ctrl := u.ctrl, regs := u.regs } ∧
        u.regs = { s.regs with pollNow := u.regs.pollNow } ∧
        (settle u).hostSide = s.hostSide ∧ (∀ a, readByte (settle u).memory a = readByte s.memory a) ∧
        (¬ engine → s.reader.sweepPending = false →
          u.reader = { s.reader with stage := .none, sweep := .idle } ∧ u.queue .request = s.queue .request ++ ended) ∧
        ((¬ engine ∧ s.reader.sweepPending = true) ∨ (engine ∧ full) →
          u.reader = { s.reader with
            stage := .none, sweepPending := false, sweep := .custody, sweepStart := s.clock.netTime, circuit := 0 } ∧
          u.regs.pollNow = false ∧ u.custody.queue = s.custody.queue ++ [(s.eventNo, .sweep 0)] ∧
          u.queue .request = s.queue .request ++ ended) ∧
        (engine → ¬ full → (kind = .verifyCircuit ∨ kind = .verifySpans ∨ kind = .abort) →
          u.reader = { s.reader with stage := .args data [] } ∧
          u.queue .request = s.queue .request ++ [⟨slot index 0x04, none, .reqArg⟩]) ∧
        (engine → ¬ full → (kind = .unknown ∨ (kind = .verifyAll ∧ freeSlot s = none)) →
          u = { s.portFreed with reader := { s.reader with stage := .answered }, master := u.master } ∧
          u.queue .request = s.queue .request ++
            [⟨slot index 0x2C, some (resultWord (if kind = .unknown then .badArgs else .noSlot) 0), .plain⟩,
              ⟨slot index 0x00, some (handbackWord data), .reqHandback⟩]) ∧
        (∀ i, engine → ¬ full → kind = .verifyAll → freeSlot s = some i →
          let id := chooseId s 8 s.ctrl.nextId
          u.campaign i =
            { id := id, state := .selecting, origin := .request index, cls := requestClass data, spanSet := .all
              startTime := s.clock.netTime, step := .custody } ∧
          (∀ j, j ≠ i → u.campaign j = s.campaign j) ∧ u.ctrl.nextId = idAfter id ∧
          u.custody = { s.custody with queue := s.custody.queue ++ [(s.eventNo, .select i id 0 true)] } ∧
          u.queue .campaign = s.queue .campaign ++
            [⟨addrOf s.params.controlBlock (0x170 + 4 * i.val), some (slotWord (u.campaign i)), .plain⟩] ∧
          u.queue .request = s.queue .request ++
            [⟨slot index 0x2C, some (resultWord .started id), .plain⟩, ⟨slot index 0x00, some (handbackWord data), .reqHandback⟩])) ∧
    (∀ r x, s.master.port = some (r, x) → x.tag = .reqHandback →
      let next := if index + 1 < s.params.slotCount then index + 1 else 0
      let goesOn := s.run = .running ∧ s.reader.sweep = .requests
      ∃ u, exec (.requestHandbackDone data) s = .next (settle u) ∧
        (∀ a, s.outsidePort a → readByte (settle u).memory a = readByte s.memory a) ∧
        u.hasEvent .requestDone = true ∧ (∀ e, e ≠ .requestDone → u.hasEvent e = s.hasEvent e) ∧
        u = { endAccess x s with reader := u.reader, regs := { s.regs with events := u.regs.events }, master := u.master } ∧
        u.reader = { s.reader with
          nextIndex := next, processed := s.reader.processed + 1, stage := if goesOn then .control else .none } ∧
        u.queue .request = s.queue .request ++ (if goesOn then [⟨slot next 0x00, none, .reqControl⟩] else []))

/-- R164 R165 R51 R52 R62 R49 R48: the last argument word of a request returns (log entry 3) and the request is answered at that event: the
write of the result word is handed over, then the hand-back of the control word with owner HOST (at once: log entry 17; code 0: log entry
25). VERIFY_CIRCUIT checks the index, then the map, then the slots; VERIFY_SPANS its count and ids, then the slots; an answer STARTED fills
the lowest FREE slot with a campaign in SELECTING with the request's class, its slot word handed over and its first selection step asked
for. ABORT makes the campaign of that id ABORTING with its step abandoned and its entries given up (AbortGivesUpTheEntries says how). Every
answer but STARTED and ABORTED carries id 0 and leaves everything but the reader's stage and the two writes as it stands. -/
def Obligations.RequestsAreAnsweredAtTheirLastArgument : Prop :=
  ∀ (data control : Word) (got : List Word) (s : State), s.readsWith .reqArg → s.reader.stage = .args control got →
    let k := s.reader.nextIndex
    let n := (got.getD 0 0).toNat
    let ids := (List.range n).map (halfword ((got ++ [data]).drop 1))
    let slot := fun (o : Nat) => addrOf s.params.requestList (48 * k + o)
    let answers := fun (u : State) (code : ResultCode) (id : Nat) =>
      u.reader = { s.reader with stage := .answered } ∧
      u.queue .request = s.queue .request ++
        [⟨slot 0x2C, some (resultWord code id), .plain⟩, ⟨slot 0x00, some (handbackWord control), .reqHandback⟩]
    let only := fun (u : State) (code : ResultCode) =>
      answers u code 0 ∧ u = { s.portFreed with reader := u.reader, master := u.master }
    let creates := fun (u : State) (set : SpanSet) =>
      (freeSlot s = none → only u .noSlot) ∧
      (∀ i, freeSlot s = some i → ∃ id, answers u .started id ∧ id = chooseId s 8 s.ctrl.nextId ∧ u.ctrl.nextId = idAfter id ∧
        u.campaign i =
          { id := id, state := .selecting, origin := .request k, cls := requestClass control, spanSet := set
            startTime := s.clock.netTime, step := .custody } ∧
        (∀ j, j ≠ i → u.campaign j = s.campaign j) ∧
        u.queue .campaign = s.queue .campaign ++
          [⟨addrOf s.params.controlBlock (0x170 + 4 * i.val), some (slotWord (u.campaign i)), .plain⟩] ∧
        (∀ q, q ≠ .campaign → q ≠ .request → u.queue q = s.queue q) ∧
        u = { s.portFreed with reader := u.reader, master := u.master, ctrl := u.ctrl, custody := u.custody } ∧
        u.custody = { s.custody with
          queue := s.custody.queue ++ [(s.eventNo, .select i id (match set with | .single c => c | _ => 0) true)] })
    let ends := fun (c : Instr) (claim : State → Prop) =>
      ∃ u, exec c s = .next (settle u) ∧ (settle u).hostSide = s.hostSide ∧
        (∀ a, readByte (settle u).memory a = readByte s.memory a) ∧ claim u
    (requestKind control = .verifyCircuit → got = [] → ends (.verifyCircuit data) (fun u =>
      let index := data.toNat
      (s.params.circuitCount ≤ index → only u .badArgs) ∧
      (index < s.params.circuitCount → (s.mapEntry index).engine ≠ .watched → (s.mapEntry index).engine ≠ .claimed →
        only u .notWatched) ∧
      (index < s.params.circuitCount → (s.mapEntry index).engine = .watched ∨ (s.mapEntry index).engine = .claimed →
        creates u (.single index)))) ∧
    (requestKind control = .verifySpans → got.length = 4 → ends (.verifySpans data) (fun u =>
      (n = 0 ∨ 8 < n ∨ (∃ x ∈ ids, 4095 ≤ x) → only u .badArgs) ∧
      (n ≠ 0 → n ≤ 8 → (∀ x ∈ ids, x < 4095) → creates u (.list (distinctSpans [] ids))))) ∧
    (requestKind control = .abort → got = [] → ends (.abort data) (fun u =>
      let id := data.toNat
      (id = 0 ∨ 255 < id ∨ (∀ i, (s.campaign i).state = .free ∨ (s.campaign i).id ≠ id) → only u .noSuchCampaign) ∧
      (∀ i, 1 ≤ id → id ≤ 255 → slotOfId s id = some i →
        (s.ctrl.offer = some i → only u .noSuchCampaign) ∧
        (s.ctrl.offer ≠ some i → (s.campaign i).state = .aborting →
          answers u .aborted id ∧ u = { s.portFreed with reader := u.reader, master := u.master }) ∧
        (s.ctrl.offer ≠ some i → (s.campaign i).state ≠ .aborting →
          (u.campaign i).state = .aborting ∧ (u.campaign i).id = id ∧ (u.campaign i).step = .idle ∧
          u = { s.portFreed with
            reader := u.reader, master := u.master, ctrl := u.ctrl, custody := u.custody, probes := u.probes } ∧
          u.ctrl = (becomeAborting i s.portFreed).ctrl ∧ u.probes = (becomeAborting i s.portFreed).probes ∧
          u.custody = (becomeAborting i s.portFreed).custody ∧
          u.reader = { s.reader with stage := .answered } ∧
          u.queue .request = (s.queue .request).map (orphanAccess (fun g => decide (g = .reach i))) ++
            [⟨slot 0x2C, some (resultWord .aborted id), .plain⟩,
              ⟨slot 0x00, some (handbackWord control), .reqHandback⟩]))))

/-! ### The whole part -/

/-- The step with a command waiting is the command at the front of the queue on the state with the queue's rest (log entry 11). -/
def Obligations.StepRunsTheFrontCommand : Prop :=
  ∀ (c : Instr) (s : State), step { s with pending := c :: s.pending } = exec c s

/-- R24 R76 R79 R80 R91 R94 R158 R178: a step with no command waiting (log entry 11: the model's reading of time, in whole milliseconds).
While the part is held nothing happens. A running timer that has come to 0 gives its expiry, one at a time: the bus timeout, the hold-offs,
the probe timers, the launch gaps, the poll timer. With none at 0, one millisecond passes: the bus timeout timer falls by one, the hold-off
timers too but before the link step of a load (log entry 19), and in RUNNING the probe timers, launch gaps and poll timer; the sub-count
rises by one, or at 999 a second event advances NET_TIME, restarts the sub-count and evaluates the windows. Nothing else changes but what
that event brings about. -/
def Obligations.IdleStepLetsTimePass : Prop :=
  ∀ (s : State), s.pending = [] →
    let runs := fun (t : Option Nat) => t = some 0
    let less := fun (t : Option Nat) => t.map (fun n => n - 1)
    let counted := countTimers s
    (s.held = true → step s = .next s) ∧
    (s.held = false →
      (∀ c, dueCommand s = some c → step s = exec c s) ∧
      (dueCommand s = none → counted.clock.subCount < 999 →
        step s = .next { counted with clock := { counted.clock with subCount := counted.clock.subCount + 1 } }) ∧
      (dueCommand s = none → 999 ≤ counted.clock.subCount →
        step s = .next (settle (evalWindows { counted with clock := { netTime := s.clock.netTime + 1, subCount := 0 } })))) ∧
    (∀ c, dueCommand s = some c →
      (c = .busTimeout ∧ s.master.port.isSome = true ∧ runs s.master.timer) ∨
      (∃ k, c = .holdOffExpiry k ∧ holdOffRuns s k = true ∧ runs (s.link k).holdOff) ∨
      (∃ i, c = .probeTimeout i ∧ s.run = .running ∧ (s.entry i).state = .waiting ∧ runs (s.entry i).timer) ∨
      (∃ i, c = .backoffExpiry i ∧ s.run = .running ∧ (s.entry i).state = .backoff ∧ runs (s.entry i).timer) ∨
      (∃ k, c = .launchGapExpiry k ∧ s.run = .running ∧ runs (s.launchSched k).gap) ∨
      (c = .pollTimerExpiry ∧ s.run = .running ∧ runs s.reader.pollTimer)) ∧
    (dueCommand s = none →
      (s.master.port.isSome = true → ¬ runs s.master.timer) ∧ (∀ k, holdOffRuns s k = true → ¬ runs (s.link k).holdOff) ∧
      (s.run = .running →
        (∀ i, (s.entry i).state = .waiting ∨ (s.entry i).state = .backoff → ¬ runs (s.entry i).timer) ∧
        (∀ k, ¬ runs (s.launchSched k).gap) ∧ ¬ runs s.reader.pollTimer)) ∧
    counted = { s with master := counted.master, links := counted.links, probes := counted.probes, reader := counted.reader } ∧
    counted.master = { s.master with timer := less s.master.timer } ∧
    (∀ k, counted.link k = { s.link k with holdOff := if monitorsRest s then (s.link k).holdOff else less (s.link k).holdOff }) ∧
    (s.run = .running →
      (∀ i, counted.entry i = { s.entry i with timer := less (s.entry i).timer }) ∧
      (∀ k, counted.launchSched k = { s.launchSched k with gap := less (s.launchSched k).gap }) ∧
      counted.probes.outcomes = s.probes.outcomes ∧
      counted.reader = { s.reader with pollTimer := less s.reader.pollTimer }) ∧
    (s.run ≠ .running → counted.probes = s.probes ∧ counted.reader = s.reader)

/-- R180 R168: right after the reset pin is released the part is HALTED and not held, no command waits (log entry 1), every register but ID
reads 0 whatever SELECT holds, the interrupt line is released; memory, with nothing written, is in its canonical form (log entry 2), the
queues are within their bounds, and the journal holds no area (log entry 4). The initial case of the three invariants below. -/
def Obligations.ResetLeavesThePartHalted : Prop :=
  State.reset.run = .halted ∧ State.reset.held = false ∧ State.reset.pending = [] ∧ readSelect State.reset = 0 ∧
  irqLine State.reset = false ∧
  (∀ index : BitVec 4, readData { State.reset with regs := { State.reset.regs with select := index } } =
    if index = 0 then 0x4A840C01 else 0) ∧
  memoryWf State.reset.memory = true ∧ State.reset.queuesBounded ∧ State.reset.journal.sound

/-- Every step keeps memory in its canonical form: addresses strictly rising, no byte listed that an unlisted address reads as
(log entry 2). -/
def Obligations.EveryStepKeepsMemoryCanonical : Prop :=
  ∀ s t : State, memoryWf s.memory = true → step s = .next t → memoryWf t.memory = true

/-- R104 R99: every step keeps the Echo Staging FIFO at no more than 16 items and every link's transmit queue at no more than 32
frames. -/
def Obligations.EveryStepKeepsTheQueuesBounded : Prop :=
  ∀ s t : State, s.queuesBounded → step s = .next t → t.queuesBounded

/-- R145 R149 R154: every step keeps the journal sound: no area, or one whose size is a multiple of 8 and at least 1024, with the write
offset, the read mark and the offset that the entry being written will leave at multiples of 8 below it; and every entry offered or in hand
is of whole 8-byte units. -/
def Obligations.EveryStepKeepsTheJournalSound : Prop :=
  ∀ s t : State, s.journal.sound → step s = .next t → t.journal.sound

/-- R173: a step whose command is no pin takes the run state only along the changes of the table: HALTED to LOADING; LOADING to HALTED or
RUNNING; RUNNING to STOPPING; STOPPING to HALTED; any to FAULTED; FAULTED to HALTED. -/
def Obligations.RunStateMovesByTheTableOnly : Prop :=
  ∀ s t : State, (∀ c ∈ s.pending.head?, c ≠ .powerOn ∧ c ≠ .resetAssert) → step s = .next t →
    s.run.mayBecome t.run = true
end

