-- ==== Sys2Proof/Laws/Memory.lean ====
section
/-! SUPPORT. Sparse tables and shared memory: reads after writes, and the canonical form every write keeps. -/

namespace Sys2Proof.Machine

/-! ### Sparse tables -/

section Sparse

variable {α : Type}

theorem sparseGet_erase_same (d : α) (m : List (Nat × α)) (i : Nat) : sparseGet d (sparseErase m i) i = d := by
  induction m with
  | nil => rfl
  | cons p rest ih =>
    obtain ⟨k, v⟩ := p
    by_cases hk : k = i
    · simpa [sparseErase, hk] using ih
    · have : i ≠ k := fun e => hk e.symm
      simpa [sparseErase, hk, sparseGet, this] using ih

theorem sparseGet_erase_other (d : α) (m : List (Nat × α)) (i j : Nat) (hij : j ≠ i) :
    sparseGet d (sparseErase m i) j = sparseGet d m j := by
  induction m with
  | nil => rfl
  | cons p rest ih =>
    obtain ⟨k, v⟩ := p
    by_cases hk : k = i
    · subst hk; simpa [sparseErase, sparseGet, hij] using ih
    · simp only [sparseErase, ne_eq, decide_not] at ih
      simp [sparseErase, hk, sparseGet, ih]

theorem sparseGet_insert_same (d : α) (m : List (Nat × α)) (i : Nat) (x : α) (h : ∀ p ∈ m, p.1 ≠ i) :
    sparseGet d (sparseInsert m i x) i = x := by
  induction m with
  | nil => simp [sparseInsert, sparseGet]
  | cons p rest ih =>
    obtain ⟨k, v⟩ := p
    have hk : i ≠ k := fun e => h (k, v) (by simp) e.symm
    by_cases hi : i < k
    · simp [sparseInsert, sparseGet, hi]
    · simp [sparseInsert, sparseGet, hi, hk, ih (fun q hq => h q (by simp [hq]))]

theorem sparseGet_insert_other (d : α) (m : List (Nat × α)) (i j : Nat) (x : α) (hij : j ≠ i) :
    sparseGet d (sparseInsert m i x) j = sparseGet d m j := by
  induction m with
  | nil => simp [sparseInsert, sparseGet, hij]
  | cons p rest ih => by_cases hi : i < p.1 <;> simp [sparseInsert, sparseGet, hi, hij, ih]

theorem mem_sparseErase (m : List (Nat × α)) (i : Nat) (p : Nat × α) (h : p ∈ sparseErase m i) : p.1 ≠ i := by
  simpa using (List.mem_filter.1 h).2

theorem mem_sparseInsert (m : List (Nat × α)) (i : Nat) (x : α) (q : Nat × α) :
    q ∈ sparseInsert m i x ↔ q = (i, x) ∨ q ∈ m := by
  induction m with
  | nil => simp [sparseInsert]
  | cons p rest ih =>
    by_cases hi : i < p.1
    · simp [sparseInsert, hi]
    · simp only [sparseInsert, hi, if_false, List.mem_cons, ih]; tauto

theorem sparseInsert_sorted (m : List (Nat × α)) (i : Nat) (x : α) (hm : m.Pairwise (fun p q => p.1 < q.1))
    (hi : ∀ p ∈ m, p.1 ≠ i) : (sparseInsert m i x).Pairwise (fun p q => p.1 < q.1) := by
  induction m with
  | nil => simp [sparseInsert]
  | cons p rest ih =>
    have h0 := List.pairwise_cons.1 hm
    by_cases hk : i < p.1
    · simp only [sparseInsert, hk, if_true]
      refine List.pairwise_cons.2 ⟨fun q hq => ?_, hm⟩
      rcases List.mem_cons.1 hq with rfl | hq
      · exact hk
      · exact Nat.lt_trans hk (h0.1 q hq)
    · have hp : p.1 ≠ i := hi p (by simp)
      simp only [sparseInsert, hk, if_false]
      refine List.pairwise_cons.2 ⟨fun q hq => ?_, ih h0.2 (fun r hr => hi r (by simp [hr]))⟩
      rcases (mem_sparseInsert _ _ _ _).1 hq with rfl | hq
      · show p.1 < i
        omega
      · exact h0.1 q hq

variable [DecidableEq α]

/-- A value put at a key is read there. -/
@[simp] theorem sparseGet_put_same (d : α) (m : List (Nat × α)) (i : Nat) (x : α) : sparseGet d (sparsePut d m i x) i = x := by
  simp only [sparsePut]
  split
  · rename_i h; rw [h]; exact sparseGet_erase_same d m i
  · exact sparseGet_insert_same d _ i x (mem_sparseErase m i)

/-- The other keys keep their values. -/
theorem sparseGet_put_other (d : α) (m : List (Nat × α)) (i j : Nat) (x : α) (hij : j ≠ i) :
    sparseGet d (sparsePut d m i x) j = sparseGet d m j := by
  simp only [sparsePut]
  split
  · exact sparseGet_erase_other d m i j hij
  · rw [sparseGet_insert_other _ _ _ _ _ hij, sparseGet_erase_other _ _ _ _ hij]

/-- Putting a value keeps the canonical form. -/
theorem sparsePut_wf (d : α) (m : List (Nat × α)) (i : Nat) (x : α) (h : sparseWf d m = true) :
    sparseWf d (sparsePut d m i x) = true := by
  simp only [sparseWf, Bool.and_eq_true, decide_eq_true_eq, List.all_eq_true] at *
  have he : (sparseErase m i).Pairwise (fun p q => p.1 < q.1) := h.1.filter _
  have hd : ∀ p ∈ sparseErase m i, p.2 ≠ d := fun p hp => h.2 p (List.mem_filter.1 hp).1
  simp only [sparsePut]
  split
  · exact ⟨he, hd⟩
  · rename_i hx
    refine ⟨sparseInsert_sorted _ i x he (mem_sparseErase m i), fun p hp => ?_⟩
    rcases (mem_sparseInsert _ _ _ _).1 hp with rfl | hp
    · exact hx
    · exact hd p hp

end Sparse

/-! ### Shared memory -/

/-- A write of a word keeps memory's canonical form. -/
theorem writeWord_wf (m : List Host.Cell) (a w : Word) (h : memoryWf m = true) : memoryWf (writeWord m a w) = true := by
  simp only [memoryWf, writeWord] at *
  exact sparsePut_wf _ _ _ _ (sparsePut_wf _ _ _ _ (sparsePut_wf _ _ _ _ (sparsePut_wf _ _ _ _ h)))

/-- A write of a word leaves every byte outside its four as it stands. -/
theorem readByte_writeWord_outside (m : List Host.Cell) (a w : Word) (b : Nat) (hb : b < a.toNat ∨ a.toNat + 4 ≤ b) :
    readByte (writeWord m a w) b = readByte m b := by
  simp only [readByte, writeWord]
  rw [sparseGet_put_other _ _ _ _ _ (by omega), sparseGet_put_other _ _ _ _ _ (by omega),
    sparseGet_put_other _ _ _ _ _ (by omega), sparseGet_put_other _ _ _ _ _ (by omega)]

/-- The bytes of a word written are read back, little-endian. -/
theorem readByte_writeWord_inside (m : List Host.Cell) (a w : Word) (i : Nat) (hi : i < 4) :
    readByte (writeWord m a w) (a.toNat + i) = byteOf w i := by
  simp only [readByte, writeWord]
  have cases4 : i = 0 ∨ i = 1 ∨ i = 2 ∨ i = 3 := by omega
  rcases cases4 with rfl | rfl | rfl | rfl
  · rw [sparseGet_put_other _ _ _ _ _ (by omega), sparseGet_put_other _ _ _ _ _ (by omega),
      sparseGet_put_other _ _ _ _ _ (by omega)]
    exact sparseGet_put_same _ _ _ _
  · rw [sparseGet_put_other _ _ _ _ _ (by omega), sparseGet_put_other _ _ _ _ _ (by omega)]
    exact sparseGet_put_same _ _ _ _
  · rw [sparseGet_put_other _ _ _ _ _ (by omega)]
    exact sparseGet_put_same _ _ _ _
  · exact sparseGet_put_same _ _ _ _

/-- A word written is read back. -/
theorem readWord_writeWord (m : List Host.Cell) (a w : Word) : readWord (writeWord m a w) a = w := by
  have r := readByte_writeWord_inside m a w
  have r0 := r 0 (by omega)
  simp only [Nat.add_zero] at r0
  simp only [readWord, r0, r 1 (by omega), r 2 (by omega), r 3 (by omega), byteOf]
  apply BitVec.eq_of_getLsbD_eq
  intro i hi
  have e2 (h : 8 ≤ i - 8) : 16 + (i - 8 - 8) = i := by omega
  have e3 (h : 8 ≤ i - 8 - 8) : 24 + (i - 8 - 8 - 8) = i := by omega
  have e4 : i - 8 - 8 - 8 < 8 := by omega
  simp only [BitVec.getLsbD_append, BitVec.getLsbD_extractLsb']
  (repeat' split) <;> simp_all

/-- The end of an access keeps memory's canonical form. -/
theorem endAccess_wf (a : Access) (s : State) (h : memoryWf s.memory = true) : memoryWf (endAccess a s).memory = true := by
  simp only [endAccess]
  split
  · exact writeWord_wf _ _ _ h
  · exact h

/-- An access cut off keeps memory's canonical form, whether its write landed or not. -/
theorem cutAccess_wf (s : State) (h : memoryWf s.memory = true) : memoryWf (cutAccess s).memory = true := by
  simp only [cutAccess]
  (repeat' split) <;> simp_all [useFree, writeWord_wf]

end Sys2Proof.Machine
end

