-- ==== Sys2Proof/Laws/Surround.lean ====
section
/-! SUPPORT. The host side, the links and the FIFO under every operation of the blocks. -/

namespace Sys2Proof.Machine

@[simp] theorem surround_custody (s : State) (x : Custody) : ({ s with custody := x } : State).surround = s.surround := rfl
@[simp] theorem surround_ctrl (s : State) (x : Controller) : ({ s with ctrl := x } : State).surround = s.surround := rfl
@[simp] theorem surround_probes (s : State) (x : Probes) : ({ s with probes := x } : State).surround = s.surround := rfl
@[simp] theorem surround_sched (s : State) (x : Scheduler) : ({ s with sched := x } : State).surround = s.surround := rfl
@[simp] theorem surround_cmp (s : State) (x : Comparator) : ({ s with cmp := x } : State).surround = s.surround := rfl
@[simp] theorem surround_reader (s : State) (x : Reader) : ({ s with reader := x } : State).surround = s.surround := rfl
@[simp] theorem surround_master (s : State) (x : Master) : ({ s with master := x } : State).surround = s.surround := rfl
@[simp] theorem surround_loader (s : State) (x : Loader) : ({ s with loader := x } : State).surround = s.surround := rfl
@[simp] theorem surround_freeCount (s : State) (x : Nat) : ({ s with freeCount := x } : State).surround = s.surround := rfl
@[simp] theorem surround_eventNo (s : State) (x : Nat) : ({ s with eventNo := x } : State).surround = s.surround := rfl
@[simp] theorem surround_runState (s : State) (x : RunState) :
    ({ s with regs := { s.regs with runState := x } } : State).surround = s.surround := rfl
@[simp] theorem surround_events (s : State) (x : BitVec 10) :
    ({ s with regs := { s.regs with events := x } } : State).surround = s.surround := rfl
@[simp] theorem surround_pollNow (s : State) (x : Bool) :
    ({ s with regs := { s.regs with pollNow := x } } : State).surround = s.surround := rfl

@[simp] theorem Journal.ring_mk (a : Word) (b c d : Nat) (e : Word) (f : JournalPhase) (g : Option (Source × JournalEntry)) (h : Nat)
    (i j k : Option JournalEntry) (l : Source) :
    (Journal.mk a b c d e f g h i j k l).ring = { base := a, size := b, w := c, m := d, seq := e } := rfl

@[simp] theorem ring_eta (j : Journal) : ({ base := j.base, size := j.size, w := j.w, m := j.m, seq := j.seq } : Ring) = j.ring := rfl

@[simp] theorem clearOffer_ring (j : Journal) (x : Source) : (j.clearOffer x).ring = j.ring := by cases x <;> rfl

@[simp] theorem journal_ring (s : State) : s.journal.ring = s.surround.ring := rfl

/-- A change of the journal changes the surround in its ring only. -/
@[simp] theorem modJournal_surround (f : Journal → Journal) (s : State) :
    (modJournal f s).surround = { s.surround with ring := (f s.journal).ring } := rfl

@[simp] theorem foldl_surround {α : Type} (f : State → α → State) (h : ∀ t a, (f t a).surround = t.surround) (l : List α) (s : State) :
    (l.foldl f s).surround = s.surround := by
  induction l generalizing s with
  | nil => rfl
  | cons a l ih => simp [ih, h]

@[simp] theorem setEvent_surround (e : Event) (s : State) : (setEvent e s).surround = s.surround := by
  simp [setEvent]

@[simp] theorem setRun_surround (r : RunState) (s : State) : (setRun r s).surround = s.surround := by
  simp [setRun]

@[simp] theorem modEntry_surround (i : Fin 64) (f : Entry → Entry) (s : State) : (modEntry i f s).surround = s.surround := by
  simp [modEntry]

@[simp] theorem modSched_surround (k : Fin 4) (f : LaunchSched → LaunchSched) (s : State) : (modSched k f s).surround = s.surround := by
  simp [modSched]

@[simp] theorem setOutcomes_surround (l : List (Fin 64)) (s : State) : (setOutcomes l s).surround = s.surround := by
  simp [setOutcomes]

@[simp] theorem modCampaign_surround (i : Fin 8) (f : Campaign → Campaign) (s : State) : (modCampaign i f s).surround = s.surround := by
  simp [modCampaign]

@[simp] theorem modCounts_surround (i : Fin 8) (f : Counts → Counts) (s : State) : (modCounts i f s).surround = s.surround := by
  simp [modCounts]

@[simp] theorem setOffer_surround (o : Option (Fin 8)) (s : State) : (setOffer o s).surround = s.surround := by
  simp [setOffer]

@[simp] theorem modWindow_surround (w : Fin 64) (f : Window → Window) (s : State) : (modWindow w f s).surround = s.surround := by
  simp [modWindow]

@[simp] theorem setMapEntry_surround (c : Nat) (e : MapEntry) (s : State) : (setMapEntry c e s).surround = s.surround := by
  simp [setMapEntry]

@[simp] theorem setAction_surround (a : Option Action) (s : State) : (setAction a s).surround = s.surround := by
  simp [setAction]

@[simp] theorem modReader_surround (f : Reader → Reader) (s : State) : (modReader f s).surround = s.surround := by
  simp [modReader]

@[simp] theorem modCmp_surround (f : Comparator → Comparator) (s : State) : (modCmp f s).surround = s.surround := by
  simp [modCmp]

 
@[simp] theorem modLoader_surround (f : Loader → Loader) (s : State) : (modLoader f s).surround = s.surround := by
  simp [modLoader]

@[simp] theorem useFree_surround (s : State) : (useFree s).surround = s.surround := by
  simp [useFree]

@[simp] theorem setQueue_surround (r : Requester) (q : List Access) (s : State) : (setQueue r q s).surround = s.surround := by
  simp [setQueue]

@[simp] theorem hand_surround (r : Requester) (a : Access) (s : State) : (hand r a s).surround = s.surround := by
  simp [hand]

@[simp] theorem handRead_surround (r : Requester) (addr : Word) (tag : Tag) (s : State) : (handRead r addr tag s).surround = s.surround := by
  simp [handRead]

@[simp] theorem handWrite_surround (r : Requester) (addr : Word) (data : Word) (tag : Tag) (s : State) : (handWrite r addr data tag s).surround = s.surround := by
  simp [handWrite]

@[simp] theorem issue_surround (s : State) : (issue s).surround = s.surround := by
  simp only [issue]
  (repeat' split) <;> simp

@[simp] theorem dropQueues_surround (s : State) : (dropQueues s).surround = s.surround := by
  simp [dropQueues]

@[simp] theorem orphan_surround (p : Tag → Bool) (s : State) : (orphan p s).surround = s.surround := by
  simp [orphan]

@[simp] theorem statusWrite_surround (r : Requester) (offset : Nat) (data : Word) (s : State) : (statusWrite r offset data s).surround = s.surround := by
  simp [statusWrite]

@[simp] theorem runStateWrite_surround (r : RunState) (tag : Tag) (s : State) : (runStateWrite r tag s).surround = s.surround := by
  simp [runStateWrite]

@[simp] theorem linkStateWrite_surround (k : Fin 4) (s : State) : (linkStateWrite k s).surround = s.surround := by
  simp [linkStateWrite]

@[simp] theorem linkStateReport_surround (k : Fin 4) (s : State) : (linkStateReport k s).surround = s.surround := by
  simp only [linkStateReport]
  (repeat' split) <;> simp

@[simp] theorem linkCountersWrite_surround (k : Fin 4) (s : State) : (linkCountersWrite k s).surround = s.surround := by
  simp [linkCountersWrite]

@[simp] theorem linkStatusWrite_surround (k : Fin 4) (s : State) : (linkStatusWrite k s).surround = s.surround := by
  simp [linkStatusWrite]

@[simp] theorem slotWordWrite_surround (i : Fin 8) (s : State) : (slotWordWrite i s).surround = s.surround := by
  simp [slotWordWrite]

@[simp] theorem slotWordsWrite_surround (s : State) : (slotWordsWrite s).surround = s.surround := by
  simp [slotWordsWrite]

@[simp] theorem engineWordWrite_surround (circuit : Nat) (tag : Tag) (s : State) : (engineWordWrite circuit tag s).surround = s.surround := by
  simp [engineWordWrite]

@[simp] theorem askCustody_surround (r : CustodyReq) (s : State) : (askCustody r s).surround = s.surround := by
  simp [askCustody]

@[simp] theorem disturb_surround (circuit : Nat) (s : State) : (disturb circuit s).surround = s.surround := by
  simp only [disturb]
  (repeat' split) <;> simp

@[simp] theorem leave_surround (circuit : Nat) (base : EngineState) (s : State) : (leave circuit base s).surround = s.surround := by
  simp [leave]

@[simp] theorem closeOwner_surround (i : Fin 8) (f : Counts → Counts) (s : State) : (closeOwner i f s).surround = s.surround := by
  simp [closeOwner]

@[simp] theorem closeJoiner_surround (f : Counts → Counts) (s : State) (i : Fin 8) : (closeJoiner f s i).surround = s.surround := by
  simp [closeJoiner]

@[simp] theorem closeInterests_surround (e : Entry) (f : Counts → Counts) (s : State) : (closeInterests e f s).surround = s.surround := by
  simp [closeInterests]

@[simp] theorem beginStep_surround (i : Fin 8) (s : State) : (beginStep i s).surround = s.surround := by
  simp [beginStep]

@[simp] theorem endStep_surround (i : Fin 8) (s : State) : (endStep i s).surround = s.surround := by
  simp only [endStep]
  (repeat' split) <;> simp

@[simp] theorem restartStep_surround (i : Fin 8) (s : State) : (restartStep i s).surround = s.surround := by
  simp only [restartStep]
  (repeat' split) <;> simp

@[simp] theorem enqueue_surround (i : Fin 64) (k : Fin 4) (s : State) : (enqueue i k s).surround = s.surround := by
  simp [enqueue]

@[simp] theorem dequeue_surround (i : Fin 64) (s : State) : (dequeue i s).surround = s.surround := by
  simp [dequeue]

@[simp] theorem dequeueIfQueued_surround (i : Fin 64) (s : State) : (dequeueIfQueued i s).surround = s.surround := by
  simp only [dequeueIfQueued]
  (repeat' split) <;> simp

@[simp] theorem conclude_surround (i : Fin 64) (c : Conclusion) (s : State) : (conclude i c s).surround = s.surround := by
  simp [conclude]

@[simp] theorem allocate_surround (slot : Fin 8) (sel : Selected) (r : Reach) (i : Fin 64) (s : State) : (allocate slot sel r i s).surround = s.surround := by
  simp only [allocate]
  (repeat' split) <;> simp

@[simp] theorem freeOne_surround (i : Fin 64) (s : State) : (freeOne i s).surround = s.surround := by
  simp [freeOne]

@[simp] theorem releaseEntry_surround (i : Fin 64) (s : State) : (releaseEntry i s).surround = s.surround := by
  simp [releaseEntry]

@[simp] theorem withdraw_surround (i : Fin 64) (s : State) : (withdraw i s).surround = s.surround := by
  simp [withdraw]

@[simp] theorem withdrawSpans_surround (spans : List Nat) (s : State) : (withdrawSpans spans s).surround = s.surround :=
  foldl_surround _ (fun t i => by split <;> simp) _ s

@[simp] theorem entryLinkDown_surround (k : Fin 4) (s : State) (i : Fin 64) : (entryLinkDown k s i).surround = s.surround := by
  simp only [entryLinkDown]
  (repeat' split) <;> simp

@[simp] theorem linkWentDown_surround (k : Fin 4) (s : State) : (linkWentDown k s).surround = s.surround := by
  simp [linkWentDown]

@[simp] theorem entryLinkUp_surround (j : Fin 4) (k : Fin 4) (s : State) (i : Fin 64) : (entryLinkUp j k s i).surround = s.surround := by
  simp only [entryLinkUp]
  (repeat' split) <;> simp

@[simp] theorem moveFrom_surround (k : Fin 4) (s : State) (j : Fin 4) : (moveFrom k s j).surround = s.surround := by
  simp only [moveFrom]
  (repeat' split) <;> simp

@[simp] theorem linkBecameUp_surround (k : Fin 4) (s : State) : (linkBecameUp k s).surround = s.surround := by
  simp [linkBecameUp]

@[simp] theorem timeoutEntry_surround (i : Fin 64) (s : State) : (timeoutEntry i s).surround = s.surround := by
  simp only [timeoutEntry]
  (repeat' split) <;> simp

@[simp] theorem backoffDone_surround (i : Fin 64) (s : State) : (backoffDone i s).surround = s.surround := by
  simp only [backoffDone]
  (repeat' split) <;> simp

@[simp] theorem setFence_surround (f : List (Nat × Nat)) (s : State) : (setFence f s).surround = s.surround := by
  simp [setFence]

@[simp] theorem raiseFence_surround (spans : List Nat) (s : State) : (raiseFence spans s).surround = s.surround := by
  simp [raiseFence]

@[simp] theorem lowerFence_surround (spans : List Nat) (s : State) : (lowerFence spans s).surround = s.surround := by
  simp [lowerFence]

@[simp] theorem markPhase_surround (w : Fin 64) (s : State) : (markPhase w s).surround = s.surround := by
  simp only [markPhase]
  (repeat' split) <;> simp

@[simp] theorem changeWindow_surround (w : Fin 64) (f : Window → Window) (s : State) : (changeWindow w f s).surround = s.surround := by
  simp [changeWindow]

@[simp] theorem phaseWordWrites_surround (w : Fin 64) (s : State) : (phaseWordWrites w s).surround = s.surround := by
  simp [phaseWordWrites]

@[simp] theorem flushPhaseWords_surround (s : State) : (flushPhaseWords s).surround = s.surround := by
  simp [flushPhaseWords]

@[simp] theorem toSettling_surround (w : Fin 64) (s : State) : (toSettling w s).surround = s.surround := by
  simp [toSettling]

@[simp] theorem settleCheck_surround (w : Fin 64) (s : State) : (settleCheck w s).surround = s.surround := by
  simp only [settleCheck]
  (repeat' split) <;> simp

@[simp] theorem openCheck_surround (w : Fin 64) (s : State) : (openCheck w s).surround = s.surround := by
  simp only [openCheck]
  (repeat' split) <;> simp

@[simp] theorem evalWindow_surround (w : Fin 64) (s : State) : (evalWindow w s).surround = s.surround := by
  simp [evalWindow]

@[simp] theorem evalWindows_surround (s : State) : (evalWindows s).surround = s.surround := by
  simp only [evalWindows]
  (repeat' split) <;> simp

@[simp] theorem refreshIdle_surround (w : Fin 64) (ws : List Word) (s : State) : (refreshIdle w ws s).surround = s.surround := by
  simp only [refreshIdle]
  (repeat' split) <;> simp

@[simp] theorem refreshPending_surround (w : Fin 64) (ws : List Word) (s : State) : (refreshPending w ws s).surround = s.surround := by
  simp only [refreshPending]
  (repeat' split) <;> simp

@[simp] theorem refreshOpen_surround (w : Fin 64) (arm : Arm) (close : Word) (s : State) : (refreshOpen w arm close s).surround = s.surround := by
  simp only [refreshOpen]
  (repeat' split) <;> simp

@[simp] theorem refreshFinished_surround (w : Fin 64) (arm : Arm) (s : State) : (refreshFinished w arm s).surround = s.surround := by
  simp only [refreshFinished]
  (repeat' split) <;> simp

@[simp] theorem applyRefresh_surround (r : Refresh) (s : State) : (applyRefresh r s).surround = s.surround := by
  simp only [applyRefresh]
  (repeat' split) <;> simp

@[simp] theorem loadWindow_surround (w : Fin 64) (ws : List Word) (s : State) : (loadWindow w ws s).surround = s.surround := by
  simp only [loadWindow]
  (repeat' split) <;> simp

@[simp] theorem createCampaign_surround (i : Fin 8) (origin : Origin) (cls : Class) (set : SpanSet) (s : State) : (createCampaign i origin cls set s).1.surround = s.surround := by
  simp only [createCampaign]
  (repeat' split) <;> simp

@[simp] theorem grant_surround (i : Fin 8) (w : Fin 64) (s : State) : (grant i w s).surround = s.surround := by
  simp [grant]

@[simp] theorem grantLoop_surround (n : Nat) (s : State) : (grantLoop n s).surround = s.surround := by
  induction n generalizing s with
  | zero => rfl
  | succ n ih => simp only [grantLoop]; split <;> simp [ih]

@[simp] theorem serveGrants_surround (s : State) : (serveGrants s).surround = s.surround := by
  simp only [serveGrants]
  (repeat' split) <;> simp

@[simp] theorem joinEntry_surround (i : Fin 8) (sel : Selected) (s : State) : (joinEntry i sel s).surround = s.surround := by
  simp only [joinEntry]
  (repeat' split) <;> simp

@[simp] theorem reachClaim_surround (i : Fin 8) (sel : Selected) (s : State) : (reachClaim i sel s).surround = s.surround := by
  simp [reachClaim]

@[simp] theorem spanTest_surround (i : Fin 8) (claimed : Bool) (sel : Selected) (s : State) : (spanTest i claimed sel s).surround = s.surround := by
  simp only [spanTest]
  (repeat' split) <;> simp

@[simp] theorem stepOutcome_surround (i : Fin 8) (o : SelectOutcome) (s : State) : (stepOutcome i o s).surround = s.surround := by
  simp only [stepOutcome]
  (repeat' split) <;> simp

@[simp] theorem reachRead_surround (i : Fin 8) (data : Word) (s : State) : (reachRead i data s).surround = s.surround := by
  simp only [reachRead]
  (repeat' split) <;> simp

@[simp] theorem makeClaim_surround (i : Fin 8) (sel : Selected) (r : Reach) (e : Fin 64) (s : State) : (makeClaim i sel r e s).surround = s.surround := by
  simp only [makeClaim]
  (repeat' split) <;> simp

@[simp] theorem claimLoop_surround (n : Nat) (s : State) : (claimLoop n s).surround = s.surround := by
  induction n generalizing s with
  | zero => rfl
  | succ n ih => simp only [claimLoop]; (repeat' split) <;> simp [ih]

@[simp] theorem serveClaims_surround (s : State) : (serveClaims s).surround = s.surround := by
  simp only [serveClaims]
  (repeat' split) <;> simp

@[simp] theorem abortOwned_surround (i : Fin 8) (s : State) (e : Fin 64) : (abortOwned i s e).surround = s.surround := by
  simp only [abortOwned]
  (repeat' split) <;> simp

@[simp] theorem abortJoined_surround (i : Fin 8) (s : State) (e : Fin 64) : (abortJoined i s e).surround = s.surround := by
  simp only [abortJoined]
  (repeat' split) <;> simp

@[simp] theorem abandonStep_surround (i : Fin 8) (s : State) : (abandonStep i s).surround = s.surround := by
  simp [abandonStep]

@[simp] theorem becomeAborting_surround (i : Fin 8) (s : State) : (becomeAborting i s).surround = s.surround := by
  simp [becomeAborting]

@[simp] theorem abortCampaign_surround (id : Nat) (s : State) : (abortCampaign id s).1.surround = s.surround := by
  simp only [abortCampaign]
  (repeat' split) <;> simp

@[simp] theorem serveSummaries_surround (s : State) : (serveSummaries s).surround = s.surround := by
  simp only [serveSummaries]
  (repeat' split) <;> simp

@[simp] theorem finishWindow_surround (o : Origin) (aborted : Bool) (s : State) : (finishWindow o aborted s).surround = s.surround := by
  simp only [finishWindow]
  (repeat' split) <;> simp

@[simp] theorem summaryWritten_surround (i : Fin 8) (s : State) : (summaryWritten i s).surround = s.surround := by
  simp [summaryWritten]

@[simp] theorem toComparing_surround (i : Fin 64) (s : State) : (toComparing i s).surround = s.surround := by
  simp [toComparing]

@[simp] theorem holdItem_surround (item : Item) (s : State) : (holdItem item s).surround = s.surround := by
  simp [holdItem]

@[simp] theorem takeOutcome_surround (i : Fin 64) (rest : List (Fin 64)) (s : State) : (takeOutcome i rest s).surround = s.surround := by
  simp only [takeOutcome]
  (repeat' split) <;> simp

@[simp] theorem handCmpWrite_surround (s : State) : (handCmpWrite s).surround = s.surround := by
  simp only [handCmpWrite]
  (repeat' split) <;> simp

@[simp] theorem beginWriting_surround (r : CmpResult) (s : State) : (beginWriting r s).surround = s.surround := by
  simp only [beginWriting]
  (repeat' split) <;> simp

@[simp] theorem cmpWriteDone_surround (s : State) : (cmpWriteDone s).surround = s.surround := by
  simp [cmpWriteDone]

@[simp] theorem finishAlignment_surround (s : State) : (finishAlignment s).surround = s.surround := by
  simp only [finishAlignment]
  (repeat' split) <;> simp

@[simp] theorem engineWordDone_surround (s : State) : (engineWordDone s).surround = s.surround := by
  simp only [engineWordDone]
  (repeat' split) <;> simp

@[simp] theorem cmpIdle_surround (s : State) : (cmpIdle s).surround = s.surround := by
  simp [cmpIdle]

@[simp] theorem verdictWritten_surround (s : State) : (verdictWritten s).surround = s.surround := by
  simp only [verdictWritten]
  (repeat' split) <;> simp

@[simp] theorem verdictAbandoned_surround (s : State) : (verdictAbandoned s).surround = s.surround := by
  simp [verdictAbandoned]

@[simp] theorem beginSweep_surround (s : State) : (beginSweep s).surround = s.surround := by
  simp [beginSweep]

@[simp] theorem trigger_surround (s : State) : (trigger s).surround = s.surround := by
  simp only [trigger]
  (repeat' split) <;> simp

@[simp] theorem endSweep_surround (s : State) : (endSweep s).surround = s.surround := by
  simp only [endSweep]
  (repeat' split) <;> simp

@[simp] theorem readControlWord_surround (s : State) : (readControlWord s).surround = s.surround := by
  simp [readControlWord]

@[simp] theorem beginScan_surround (s : State) : (beginScan s).surround = s.surround := by
  simp [beginScan]

@[simp] theorem startCampaign_surround (k : Nat) (cls : Class) (set : SpanSet) (s : State) : (startCampaign k cls set s).1.surround = s.surround := by
  simp only [startCampaign]
  (repeat' split) <;> simp

@[simp] theorem answerCircuit_surround (k : Nat) (cls : Class) (index : Nat) (s : State) : (answerCircuit k cls index s).1.surround = s.surround := by
  simp only [answerCircuit]
  (repeat' split) <;> simp

@[simp] theorem answerSpans_surround (k : Nat) (cls : Class) (args : List Word) (s : State) : (answerSpans k cls args s).1.surround = s.surround := by
  simp only [answerSpans]
  (repeat' split) <;> simp

@[simp] theorem answerAbort_surround (id : Nat) (s : State) : (answerAbort id s).1.surround = s.surround := by
  simp only [answerAbort]
  (repeat' split) <;> simp

@[simp] theorem answerRequest_surround (control : Word) (args : List Word) (s : State) : (answerRequest control args s).1.surround = s.surround := by
  simp only [answerRequest]
  (repeat' split) <;> simp

@[simp] theorem actOnRequest_surround (control : Word) (args : List Word) (s : State) : (actOnRequest control args s).surround = s.surround := by
  simp [actOnRequest]

@[simp] theorem nextArg_surround (control : Word) (got : List Word) (s : State) : (nextArg control got s).surround = s.surround := by
  simp only [nextArg]
  (repeat' split) <;> simp

@[simp] theorem controlRead_surround (data : Word) (s : State) : (controlRead data s).surround = s.surround := by
  simp only [controlRead]
  (repeat' split) <;> simp

@[simp] theorem argRead_surround (data : Word) (s : State) : (argRead data s).surround = s.surround := by
  simp only [argRead]
  (repeat' split) <;> simp

@[simp] theorem handbackDone_surround (s : State) : (handbackDone s).surround = s.surround := by
  simp only [handbackDone]
  (repeat' split) <;> simp

@[simp] theorem goOnWindows_surround (s : State) : (goOnWindows s).surround = s.surround := by
  simp only [goOnWindows]
  (repeat' split) <;> simp

@[simp] theorem beginWindows_surround (s : State) : (beginWindows s).surround = s.surround := by
  simp [beginWindows]

@[simp] theorem refreshRead_surround (data : Word) (s : State) : (refreshRead data s).surround = s.surround := by
  simp only [refreshRead]
  (repeat' split) <;> simp

@[simp] theorem sweepNext_surround (s : State) : (sweepNext s).surround = s.surround := by
  simp only [sweepNext]
  (repeat' split) <;> simp

@[simp] theorem poll_surround (s : State) : (poll s).surround = s.surround := by
  simp [poll]

@[simp] theorem epochRead_surround (data : Word) (s : State) : (epochRead data s).surround = s.surround := by
  simp only [epochRead]
  (repeat' split) <;> simp

@[simp] theorem beginAction_surround (req : CustodyReq) (s : State) : (beginAction req s).surround = s.surround := by
  simp [beginAction]

@[simp] theorem serveCustody_surround (s : State) : (serveCustody s).surround = s.surround := by
  simp only [serveCustody]
  (repeat' split) <;> simp

@[simp] theorem enterRunning_surround (s : State) : (enterRunning s).surround = s.surround := by
  simp only [enterRunning]
  (repeat' split) <;> simp

@[simp] theorem loadNext_surround (s : State) : (loadNext s).surround = s.surround := by
  simp only [loadNext]
  (repeat' split) <;> simp

@[simp] theorem endAction_surround (o : SelectOutcome) (s : State) : (endAction o s).surround = s.surround := by
  simp only [endAction]
  (repeat' split) <;> simp

@[simp] theorem recordWrites_surround (c : Nat) (l : List (Nat × Word)) (s : State) :
    (recordWrites c l s).surround = s.surround := by
  induction l generalizing s with
  | nil => rfl
  | cons x l ih => cases l <;> simp_all [recordWrites]

@[simp] theorem setPhase_surround (p : ActionPhase) (s : State) : (setPhase p s).surround = s.surround := by
  simp only [setPhase]
  (repeat' split) <;> simp

@[simp] theorem becomeState_surround (c : Nat) (e : EngineState) (s : State) : (becomeState c e s).surround = s.surround := by
  simp [becomeState]

@[simp] theorem accept_surround (c : Nat) (words : RecordWords) (isLoad : Bool) (o : SelectOutcome) (s : State) : (accept c words isLoad o s).surround = s.surround := by
  simp only [accept]
  (repeat' split) <;> simp

@[simp] theorem reject_surround (c : Nat) (words : RecordWords) (v : Verdict) (campaigns : List Nat) (o : SelectOutcome) (s : State) : (reject c words v campaigns o s).surround = s.surround := by
  simp [reject]

@[simp] theorem actionWritten_surround (s : State) : (actionWritten s).surround = s.surround := by
  simp only [actionWritten]
  (repeat' split) <;> simp

@[simp] theorem custodyEntryDone_surround (s : State) : (custodyEntryDone s).surround = s.surround := by
  simp only [custodyEntryDone]
  (repeat' split) <;> simp

@[simp] theorem beginRoute_surround (c : Nat) (words : RecordWords) (s : State) : (beginRoute c words s).surround = s.surround := by
  simp [beginRoute]

@[simp] theorem routeResult_surround (a : Action) (words : RecordWords) (w4 : Word) (route : Option Route) (s : State) : (routeResult a words w4 route s).surround = s.surround := by
  simp only [routeResult]
  (repeat' split) <;> simp

@[simp] theorem routeEnd_surround (a : Action) (words : RecordWords) (w4 : Word) (route : Option Route) (s : State) : (routeEnd a words w4 route s).surround = s.surround := by
  simp only [routeEnd]
  (repeat' split) <;> simp

@[simp] theorem routeRead_surround (data : Word) (s : State) : (routeRead data s).surround = s.surround := by
  simp only [routeRead]
  (repeat' split) <;> simp

@[simp] theorem afterHostAction_surround (a : Action) (words : RecordWords) (s : State) : (afterHostAction a words s).surround = s.surround := by
  simp only [afterHostAction]
  (repeat' split) <;> simp

@[simp] theorem compareRead_surround (i : Fin 64) (words : RecordWords) (s : State) : (compareRead i words s).surround = s.surround := by
  simp only [compareRead]
  (repeat' split) <;> simp

@[simp] theorem followHostAction_surround (a : Action) (words : RecordWords) (d : HostAction) (s : State) :
    (followHostAction a words d s).surround = s.surround := by
  simp only [followHostAction]
  (repeat' split) <;> simp

@[simp] theorem applyRecord_surround (a : Action) (words : RecordWords) (s : State) : (applyRecord a words s).surround = s.surround := by
  simp only [applyRecord]
  (repeat' split) <;> simp

@[simp] theorem recordDone_surround (a : Action) (words : RecordWords) (s : State) : (recordDone a words s).surround = s.surround := by
  simp only [recordDone]
  (repeat' split) <;> simp

@[simp] theorem recordRead_surround (data : Word) (s : State) : (recordRead data s).surround = s.surround := by
  simp only [recordRead]
  (repeat' split) <;> simp

@[simp] theorem journalWrites_surround (g : Tag) (o : Nat) (l : List Word) (s : State) :
    (journalWrites g o l s).surround = s.surround := by
  induction l generalizing o s with
  | nil => rfl
  | cons x l ih => cases l <;> simp_all [journalWrites]

@[simp] theorem writeEntry_surround (p : Placement) (e : JournalEntry) (s : State) : (writeEntry p e s).surround = s.surround := by
  simp only [writeEntry]
  (repeat' split) <;> simp

@[simp] theorem toldWritten_surround (x0 : Source) (s : State) : (toldWritten x0 s).surround = s.surround := by
  simp only [toldWritten]
  (repeat' split) <;> simp

@[simp] theorem toldAbandoned_surround (x0 : Source) (s : State) : (toldAbandoned x0 s).surround = s.surround := by
  simp only [toldAbandoned]
  (repeat' split) <;> simp

@[simp] theorem abandonHand_surround (s : State) : (abandonHand s).surround = s.surround := by
  simp only [abandonHand]
  (repeat' split) <;> simp

@[simp] theorem noRoom_surround (s : State) : (noRoom s).surround = s.surround := by
  simp only [noRoom]
  (repeat' split) <;> simp

@[simp] theorem placeHand_surround (s : State) : (placeHand s).surround = s.surround := by
  simp only [placeHand]
  (repeat' split) <;> simp

@[simp] theorem takeEntry_surround (s : State) : (takeEntry s).surround = s.surround := by
  simp only [takeEntry]
  (repeat' split) <;> simp

@[simp] theorem serveJournalLoop_surround (n : Nat) (s : State) : (serveJournalLoop n s).surround = s.surround := by
  induction n generalizing s with
  | zero => rfl
  | succ n ih => simp only [serveJournalLoop]; split <;> simp [ih]

@[simp] theorem serveJournal_surround (s : State) : (serveJournal s).surround = s.surround := by
  simp [serveJournal]

@[simp] theorem readControlBlock_surround (k : Nat) (s : State) : (readControlBlock k s).surround = s.surround := by
  simp [readControlBlock]

@[simp] theorem beginCustodyStep_surround (s : State) : (beginCustodyStep s).surround = s.surround := by
  simp [beginCustodyStep]

@[simp] theorem goOnLoadWindows_surround (s : State) : (goOnLoadWindows s).surround = s.surround := by
  simp only [goOnLoadWindows]
  (repeat' split) <;> simp

@[simp] theorem beginWindowStep_surround (s : State) : (beginWindowStep s).surround = s.surround := by
  simp [beginWindowStep]

@[simp] theorem loadWindowRead_surround (data : Word) (s : State) : (loadWindowRead data s).surround = s.surround := by
  simp only [loadWindowRead]
  (repeat' split) <;> simp

@[simp] theorem dropSelection_surround (s : State) (r : CustodyReq) : (dropSelection s r).surround = s.surround := by
  simp only [dropSelection]
  (repeat' split) <;> simp

@[simp] theorem haltAction_surround (s : State) : (haltAction s).surround = s.surround := by
  simp only [haltAction]
  (repeat' split) <;> simp

@[simp] theorem haltQueue_surround (s : State) : (haltQueue s).surround = s.surround := by
  simp [haltQueue]

@[simp] theorem haltRefresh_surround (s : State) : (haltRefresh s).surround = s.surround := by
  simp [haltRefresh]

@[simp] theorem haltReader_surround (s : State) : (haltReader s).surround = s.surround := by
  simp [haltReader]

@[simp] theorem haltJournal_surround (s : State) : (haltJournal s).surround = s.surround := by
  simp only [haltJournal]
  (repeat' split) <;> simp

@[simp] theorem haltRunning_surround (s : State) : (haltRunning s).surround = s.surround := by
  simp [haltRunning]

@[simp] theorem haltLoadAction_surround (s : State) : (haltLoadAction s).surround = s.surround := by
  simp only [haltLoadAction]
  (repeat' split) <;> simp

@[simp] theorem haltLoading_surround (s : State) : (haltLoading s).surround = s.surround := by
  simp [haltLoading]

@[simp] theorem haltRequest_surround (s : State) : (haltRequest s).surround = s.surround := by
  simp only [haltRequest]
  (repeat' split) <;> simp

@[simp] theorem serveStop_surround (s : State) : (serveStop s).surround = s.surround := by
  simp only [serveStop]
  (repeat' split) <;> simp

@[simp] theorem stoppingEnds_surround (s : State) : (stoppingEnds s).surround = s.surround := by
  simp only [stoppingEnds]
  (repeat' split) <;> simp

end Sys2Proof.Machine
end

