-- ==== Sys2Proof/Laws/Registers.lean ====
section
/-! SUPPORT. The register window under every operation that sets no event bit and changes no run state. -/

namespace Sys2Proof.Machine

@[simp] theorem foldl_regs {α : Type} (f : State → α → State) (h : ∀ t a, (f t a).regs = t.regs) (l : List α) (s : State) :
    (l.foldl f s).regs = s.regs := by
  induction l generalizing s with
  | nil => rfl
  | cons a l ih => simp [ih, h]

@[simp] theorem modEntry_regs (i : Fin 64) (f : Entry → Entry) (s : State) : (modEntry i f s).regs = s.regs := by
  simp [modEntry]

@[simp] theorem modSched_regs (k : Fin 4) (f : LaunchSched → LaunchSched) (s : State) : (modSched k f s).regs = s.regs := by
  simp [modSched]

@[simp] theorem setOutcomes_regs (l : List (Fin 64)) (s : State) : (setOutcomes l s).regs = s.regs := by
  simp [setOutcomes]

@[simp] theorem modCampaign_regs (i : Fin 8) (f : Campaign → Campaign) (s : State) : (modCampaign i f s).regs = s.regs := by
  simp [modCampaign]

@[simp] theorem modCounts_regs (i : Fin 8) (f : Counts → Counts) (s : State) : (modCounts i f s).regs = s.regs := by
  simp [modCounts]

@[simp] theorem setOffer_regs (o : Option (Fin 8)) (s : State) : (setOffer o s).regs = s.regs := by
  simp [setOffer]

@[simp] theorem modLink_regs (k : Fin 4) (f : Link → Link) (s : State) : (modLink k f s).regs = s.regs := by
  simp [modLink]

@[simp] theorem modCounters_regs (k : Fin 4) (f : LinkCounters → LinkCounters) (s : State) : (modCounters k f s).regs = s.regs := by
  simp [modCounters]

@[simp] theorem modWindow_regs (w : Fin 64) (f : Window → Window) (s : State) : (modWindow w f s).regs = s.regs := by
  simp [modWindow]

@[simp] theorem setMapEntry_regs (c : Nat) (e : MapEntry) (s : State) : (setMapEntry c e s).regs = s.regs := by
  simp [setMapEntry]

@[simp] theorem setAction_regs (a : Option Action) (s : State) : (setAction a s).regs = s.regs := by
  simp [setAction]

@[simp] theorem modReader_regs (f : Reader → Reader) (s : State) : (modReader f s).regs = s.regs := by
  simp [modReader]

@[simp] theorem modCmp_regs (f : Comparator → Comparator) (s : State) : (modCmp f s).regs = s.regs := by
  simp [modCmp]

@[simp] theorem modJournal_regs (f : Journal → Journal) (s : State) : (modJournal f s).regs = s.regs := by
  simp [modJournal]

@[simp] theorem modLoader_regs (f : Loader → Loader) (s : State) : (modLoader f s).regs = s.regs := by
  simp [modLoader]

@[simp] theorem useFree_regs (s : State) : (useFree s).regs = s.regs := by
  simp [useFree]

@[simp] theorem setQueue_regs (r : Requester) (q : List Access) (s : State) : (setQueue r q s).regs = s.regs := by
  simp [setQueue]

@[simp] theorem hand_regs (r : Requester) (a : Access) (s : State) : (hand r a s).regs = s.regs := by
  simp [hand]

@[simp] theorem handRead_regs (r : Requester) (addr : Word) (tag : Tag) (s : State) : (handRead r addr tag s).regs = s.regs := by
  simp [handRead]

@[simp] theorem handWrite_regs (r : Requester) (addr : Word) (data : Word) (tag : Tag) (s : State) : (handWrite r addr data tag s).regs = s.regs := by
  simp [handWrite]

@[simp] theorem issue_regs (s : State) : (issue s).regs = s.regs := by
  simp only [issue]
  (repeat' split) <;> simp

@[simp] theorem endAccess_regs (a : Access) (s : State) : (endAccess a s).regs = s.regs := by
  simp [endAccess]

@[simp] theorem cutAccess_regs (s : State) : (cutAccess s).regs = s.regs := by
  simp only [cutAccess]
  (repeat' split) <;> simp

@[simp] theorem dropQueues_regs (s : State) : (dropQueues s).regs = s.regs := by
  simp [dropQueues]

@[simp] theorem orphan_regs (p : Tag → Bool) (s : State) : (orphan p s).regs = s.regs := by
  simp [orphan]

@[simp] theorem statusWrite_regs (r : Requester) (offset : Nat) (data : Word) (s : State) : (statusWrite r offset data s).regs = s.regs := by
  simp [statusWrite]

@[simp] theorem runStateWrite_regs (r : RunState) (tag : Tag) (s : State) : (runStateWrite r tag s).regs = s.regs := by
  simp [runStateWrite]

@[simp] theorem linkStateWrite_regs (k : Fin 4) (s : State) : (linkStateWrite k s).regs = s.regs := by
  simp [linkStateWrite]

@[simp] theorem linkStateReport_regs (k : Fin 4) (s : State) : (linkStateReport k s).regs = s.regs := by
  simp only [linkStateReport]
  (repeat' split) <;> simp

@[simp] theorem linkCountersWrite_regs (k : Fin 4) (s : State) : (linkCountersWrite k s).regs = s.regs := by
  simp [linkCountersWrite]

@[simp] theorem linkStatusWrite_regs (k : Fin 4) (s : State) : (linkStatusWrite k s).regs = s.regs := by
  simp [linkStatusWrite]

@[simp] theorem slotWordWrite_regs (i : Fin 8) (s : State) : (slotWordWrite i s).regs = s.regs := by
  simp [slotWordWrite]

@[simp] theorem slotWordsWrite_regs (s : State) : (slotWordsWrite s).regs = s.regs := by
  simp [slotWordsWrite]

@[simp] theorem engineWordWrite_regs (circuit : Nat) (tag : Tag) (s : State) : (engineWordWrite circuit tag s).regs = s.regs := by
  simp [engineWordWrite]

@[simp] theorem askCustody_regs (r : CustodyReq) (s : State) : (askCustody r s).regs = s.regs := by
  simp [askCustody]

@[simp] theorem disturb_regs (circuit : Nat) (s : State) : (disturb circuit s).regs = s.regs := by
  simp only [disturb]
  (repeat' split) <;> simp

@[simp] theorem leave_regs (circuit : Nat) (base : EngineState) (s : State) : (leave circuit base s).regs = s.regs := by
  simp [leave]

@[simp] theorem closeOwner_regs (i : Fin 8) (f : Counts → Counts) (s : State) : (closeOwner i f s).regs = s.regs := by
  simp [closeOwner]

@[simp] theorem closeJoiner_regs (f : Counts → Counts) (s : State) (i : Fin 8) : (closeJoiner f s i).regs = s.regs := by
  simp [closeJoiner]

@[simp] theorem closeInterests_regs (e : Entry) (f : Counts → Counts) (s : State) : (closeInterests e f s).regs = s.regs := by
  simp [closeInterests]

@[simp] theorem beginStep_regs (i : Fin 8) (s : State) : (beginStep i s).regs = s.regs := by
  simp [beginStep]

@[simp] theorem endStep_regs (i : Fin 8) (s : State) : (endStep i s).regs = s.regs := by
  simp only [endStep]
  (repeat' split) <;> simp

@[simp] theorem restartStep_regs (i : Fin 8) (s : State) : (restartStep i s).regs = s.regs := by
  simp only [restartStep]
  (repeat' split) <;> simp

@[simp] theorem enqueue_regs (i : Fin 64) (k : Fin 4) (s : State) : (enqueue i k s).regs = s.regs := by
  simp [enqueue]

@[simp] theorem dequeue_regs (i : Fin 64) (s : State) : (dequeue i s).regs = s.regs := by
  simp [dequeue]

@[simp] theorem dequeueIfQueued_regs (i : Fin 64) (s : State) : (dequeueIfQueued i s).regs = s.regs := by
  simp only [dequeueIfQueued]
  (repeat' split) <;> simp

@[simp] theorem conclude_regs (i : Fin 64) (c : Conclusion) (s : State) : (conclude i c s).regs = s.regs := by
  simp [conclude]

@[simp] theorem allocate_regs (slot : Fin 8) (sel : Selected) (r : Reach) (i : Fin 64) (s : State) : (allocate slot sel r i s).regs = s.regs := by
  simp only [allocate]
  (repeat' split) <;> simp

@[simp] theorem freeOne_regs (i : Fin 64) (s : State) : (freeOne i s).regs = s.regs := by
  simp [freeOne]

@[simp] theorem releaseEntry_regs (i : Fin 64) (s : State) : (releaseEntry i s).regs = s.regs := by
  simp [releaseEntry]

@[simp] theorem withdraw_regs (i : Fin 64) (s : State) : (withdraw i s).regs = s.regs := by
  simp [withdraw]

@[simp] theorem withdrawSpans_regs (spans : List Nat) (s : State) : (withdrawSpans spans s).regs = s.regs :=
  foldl_regs _ (fun t i => by split <;> simp) _ s

@[simp] theorem entryLinkDown_regs (k : Fin 4) (s : State) (i : Fin 64) : (entryLinkDown k s i).regs = s.regs := by
  simp only [entryLinkDown]
  (repeat' split) <;> simp

@[simp] theorem linkWentDown_regs (k : Fin 4) (s : State) : (linkWentDown k s).regs = s.regs := by
  simp [linkWentDown]

@[simp] theorem entryLinkUp_regs (j : Fin 4) (k : Fin 4) (s : State) (i : Fin 64) : (entryLinkUp j k s i).regs = s.regs := by
  simp only [entryLinkUp]
  (repeat' split) <;> simp

@[simp] theorem moveFrom_regs (k : Fin 4) (s : State) (j : Fin 4) : (moveFrom k s j).regs = s.regs := by
  simp only [moveFrom]
  (repeat' split) <;> simp

@[simp] theorem linkBecameUp_regs (k : Fin 4) (s : State) : (linkBecameUp k s).regs = s.regs := by
  simp [linkBecameUp]

@[simp] theorem timeoutEntry_regs (i : Fin 64) (s : State) : (timeoutEntry i s).regs = s.regs := by
  simp only [timeoutEntry]
  (repeat' split) <;> simp

@[simp] theorem backoffDone_regs (i : Fin 64) (s : State) : (backoffDone i s).regs = s.regs := by
  simp only [backoffDone]
  (repeat' split) <;> simp

@[simp] theorem commitFrame_regs (k : Fin 4) (frame : List Byte) (s : State) : (commitFrame k frame s).regs = s.regs := by
  simp [commitFrame]

@[simp] theorem launch_regs (k : Fin 4) (p : PickResult) (i : Fin 64) (s : State) : (launch k p i s).regs = s.regs := by
  simp only [launch]
  (repeat' split) <;> simp

@[simp] theorem setFence_regs (f : List (Nat × Nat)) (s : State) : (setFence f s).regs = s.regs := by
  simp [setFence]

@[simp] theorem raiseFence_regs (spans : List Nat) (s : State) : (raiseFence spans s).regs = s.regs := by
  simp [raiseFence]

@[simp] theorem lowerFence_regs (spans : List Nat) (s : State) : (lowerFence spans s).regs = s.regs := by
  simp [lowerFence]

@[simp] theorem markPhase_regs (w : Fin 64) (s : State) : (markPhase w s).regs = s.regs := by
  simp only [markPhase]
  (repeat' split) <;> simp

@[simp] theorem changeWindow_regs (w : Fin 64) (f : Window → Window) (s : State) : (changeWindow w f s).regs = s.regs := by
  simp [changeWindow]

@[simp] theorem phaseWordWrites_regs (w : Fin 64) (s : State) : (phaseWordWrites w s).regs = s.regs := by
  simp [phaseWordWrites]

@[simp] theorem flushPhaseWords_regs (s : State) : (flushPhaseWords s).regs = s.regs := by
  simp [flushPhaseWords]

@[simp] theorem toSettling_regs (w : Fin 64) (s : State) : (toSettling w s).regs = s.regs := by
  simp [toSettling]

@[simp] theorem settleCheck_regs (w : Fin 64) (s : State) : (settleCheck w s).regs = s.regs := by
  simp only [settleCheck]
  (repeat' split) <;> simp

@[simp] theorem openCheck_regs (w : Fin 64) (s : State) : (openCheck w s).regs = s.regs := by
  simp only [openCheck]
  (repeat' split) <;> simp

@[simp] theorem evalWindow_regs (w : Fin 64) (s : State) : (evalWindow w s).regs = s.regs := by
  simp [evalWindow]

@[simp] theorem evalWindows_regs (s : State) : (evalWindows s).regs = s.regs := by
  simp only [evalWindows]
  (repeat' split) <;> simp

@[simp] theorem secondTick_regs (s : State) : (secondTick s).regs = s.regs := by
  simp [secondTick]

@[simp] theorem refreshIdle_regs (w : Fin 64) (ws : List Word) (s : State) : (refreshIdle w ws s).regs = s.regs := by
  simp only [refreshIdle]
  (repeat' split) <;> simp

@[simp] theorem refreshPending_regs (w : Fin 64) (ws : List Word) (s : State) : (refreshPending w ws s).regs = s.regs := by
  simp only [refreshPending]
  (repeat' split) <;> simp

@[simp] theorem refreshOpen_regs (w : Fin 64) (arm : Arm) (close : Word) (s : State) : (refreshOpen w arm close s).regs = s.regs := by
  simp only [refreshOpen]
  (repeat' split) <;> simp

@[simp] theorem refreshFinished_regs (w : Fin 64) (arm : Arm) (s : State) : (refreshFinished w arm s).regs = s.regs := by
  simp only [refreshFinished]
  (repeat' split) <;> simp

@[simp] theorem applyRefresh_regs (r : Refresh) (s : State) : (applyRefresh r s).regs = s.regs := by
  simp only [applyRefresh]
  (repeat' split) <;> simp

@[simp] theorem loadWindow_regs (w : Fin 64) (ws : List Word) (s : State) : (loadWindow w ws s).regs = s.regs := by
  simp only [loadWindow]
  (repeat' split) <;> simp

@[simp] theorem createCampaign_regs (i : Fin 8) (origin : Origin) (cls : Class) (set : SpanSet) (s : State) : (createCampaign i origin cls set s).1.regs = s.regs := by
  simp only [createCampaign]
  (repeat' split) <;> simp

@[simp] theorem grant_regs (i : Fin 8) (w : Fin 64) (s : State) : (grant i w s).regs = s.regs := by
  simp [grant]

@[simp] theorem grantLoop_regs (n : Nat) (s : State) : (grantLoop n s).regs = s.regs := by
  induction n generalizing s with
  | zero => rfl
  | succ n ih => simp only [grantLoop]; split <;> simp [ih]

@[simp] theorem serveGrants_regs (s : State) : (serveGrants s).regs = s.regs := by
  simp only [serveGrants]
  (repeat' split) <;> simp

@[simp] theorem joinEntry_regs (i : Fin 8) (sel : Selected) (s : State) : (joinEntry i sel s).regs = s.regs := by
  simp only [joinEntry]
  (repeat' split) <;> simp

@[simp] theorem reachClaim_regs (i : Fin 8) (sel : Selected) (s : State) : (reachClaim i sel s).regs = s.regs := by
  simp [reachClaim]

@[simp] theorem spanTest_regs (i : Fin 8) (claimed : Bool) (sel : Selected) (s : State) : (spanTest i claimed sel s).regs = s.regs := by
  simp only [spanTest]
  (repeat' split) <;> simp

@[simp] theorem stepOutcome_regs (i : Fin 8) (o : SelectOutcome) (s : State) : (stepOutcome i o s).regs = s.regs := by
  simp only [stepOutcome]
  (repeat' split) <;> simp

@[simp] theorem reachRead_regs (i : Fin 8) (data : Word) (s : State) : (reachRead i data s).regs = s.regs := by
  simp only [reachRead]
  (repeat' split) <;> simp

@[simp] theorem makeClaim_regs (i : Fin 8) (sel : Selected) (r : Reach) (e : Fin 64) (s : State) : (makeClaim i sel r e s).regs = s.regs := by
  simp only [makeClaim]
  (repeat' split) <;> simp

@[simp] theorem claimLoop_regs (n : Nat) (s : State) : (claimLoop n s).regs = s.regs := by
  induction n generalizing s with
  | zero => rfl
  | succ n ih => simp only [claimLoop]; (repeat' split) <;> simp [ih]

@[simp] theorem serveClaims_regs (s : State) : (serveClaims s).regs = s.regs := by
  simp only [serveClaims]
  (repeat' split) <;> simp

@[simp] theorem abortOwned_regs (i : Fin 8) (s : State) (e : Fin 64) : (abortOwned i s e).regs = s.regs := by
  simp only [abortOwned]
  (repeat' split) <;> simp

@[simp] theorem abortJoined_regs (i : Fin 8) (s : State) (e : Fin 64) : (abortJoined i s e).regs = s.regs := by
  simp only [abortJoined]
  (repeat' split) <;> simp

@[simp] theorem abandonStep_regs (i : Fin 8) (s : State) : (abandonStep i s).regs = s.regs := by
  simp [abandonStep]

@[simp] theorem becomeAborting_regs (i : Fin 8) (s : State) : (becomeAborting i s).regs = s.regs := by
  simp [becomeAborting]

@[simp] theorem abortCampaign_regs (id : Nat) (s : State) : (abortCampaign id s).1.regs = s.regs := by
  simp only [abortCampaign]
  (repeat' split) <;> simp

@[simp] theorem serveSummaries_regs (s : State) : (serveSummaries s).regs = s.regs := by
  simp only [serveSummaries]
  (repeat' split) <;> simp

@[simp] theorem finishWindow_regs (o : Origin) (aborted : Bool) (s : State) : (finishWindow o aborted s).regs = s.regs := by
  simp only [finishWindow]
  (repeat' split) <;> simp

@[simp] theorem toComparing_regs (i : Fin 64) (s : State) : (toComparing i s).regs = s.regs := by
  simp [toComparing]

@[simp] theorem holdItem_regs (item : Item) (s : State) : (holdItem item s).regs = s.regs := by
  simp [holdItem]

@[simp] theorem takeEcho_regs (e : Echo) (rest : List Echo) (s : State) : (takeEcho e rest s).regs = s.regs := by
  simp only [takeEcho]
  (repeat' split) <;> simp

@[simp] theorem takeOutcome_regs (i : Fin 64) (rest : List (Fin 64)) (s : State) : (takeOutcome i rest s).regs = s.regs := by
  simp only [takeOutcome]
  (repeat' split) <;> simp

@[simp] theorem takeOne_regs (s : State) : (takeOne s).regs = s.regs := by
  simp only [takeOne]
  (repeat' split) <;> simp

@[simp] theorem takeLoop_regs (n : Nat) (s : State) : (takeLoop n s).regs = s.regs := by
  induction n generalizing s with
  | zero => rfl
  | succ n ih => simp only [takeLoop]; split <;> simp [ih]

@[simp] theorem serveComparator_regs (s : State) : (serveComparator s).regs = s.regs := by
  simp [serveComparator]

@[simp] theorem handCmpWrite_regs (s : State) : (handCmpWrite s).regs = s.regs := by
  simp only [handCmpWrite]
  (repeat' split) <;> simp

@[simp] theorem beginWriting_regs (r : CmpResult) (s : State) : (beginWriting r s).regs = s.regs := by
  simp only [beginWriting]
  (repeat' split) <;> simp

@[simp] theorem cmpWriteDone_regs (s : State) : (cmpWriteDone s).regs = s.regs := by
  simp [cmpWriteDone]

@[simp] theorem finishAlignment_regs (s : State) : (finishAlignment s).regs = s.regs := by
  simp only [finishAlignment]
  (repeat' split) <;> simp

@[simp] theorem engineWordDone_regs (s : State) : (engineWordDone s).regs = s.regs := by
  simp only [engineWordDone]
  (repeat' split) <;> simp

@[simp] theorem cmpIdle_regs (s : State) : (cmpIdle s).regs = s.regs := by
  simp [cmpIdle]

@[simp] theorem verdictWritten_regs (s : State) : (verdictWritten s).regs = s.regs := by
  simp only [verdictWritten]
  (repeat' split) <;> simp

@[simp] theorem verdictAbandoned_regs (s : State) : (verdictAbandoned s).regs = s.regs := by
  simp [verdictAbandoned]

@[simp] theorem readControlWord_regs (s : State) : (readControlWord s).regs = s.regs := by
  simp [readControlWord]

@[simp] theorem beginScan_regs (s : State) : (beginScan s).regs = s.regs := by
  simp [beginScan]

@[simp] theorem startCampaign_regs (k : Nat) (cls : Class) (set : SpanSet) (s : State) : (startCampaign k cls set s).1.regs = s.regs := by
  simp only [startCampaign]
  (repeat' split) <;> simp

@[simp] theorem answerCircuit_regs (k : Nat) (cls : Class) (index : Nat) (s : State) : (answerCircuit k cls index s).1.regs = s.regs := by
  simp only [answerCircuit]
  (repeat' split) <;> simp

@[simp] theorem answerSpans_regs (k : Nat) (cls : Class) (args : List Word) (s : State) : (answerSpans k cls args s).1.regs = s.regs := by
  simp only [answerSpans]
  (repeat' split) <;> simp

@[simp] theorem answerAbort_regs (id : Nat) (s : State) : (answerAbort id s).1.regs = s.regs := by
  simp only [answerAbort]
  (repeat' split) <;> simp

@[simp] theorem answerRequest_regs (control : Word) (args : List Word) (s : State) : (answerRequest control args s).1.regs = s.regs := by
  simp only [answerRequest]
  (repeat' split) <;> simp

@[simp] theorem actOnRequest_regs (control : Word) (args : List Word) (s : State) : (actOnRequest control args s).regs = s.regs := by
  simp [actOnRequest]

@[simp] theorem nextArg_regs (control : Word) (got : List Word) (s : State) : (nextArg control got s).regs = s.regs := by
  simp only [nextArg]
  (repeat' split) <;> simp

@[simp] theorem argRead_regs (data : Word) (s : State) : (argRead data s).regs = s.regs := by
  simp only [argRead]
  (repeat' split) <;> simp

@[simp] theorem goOnWindows_regs (s : State) : (goOnWindows s).regs = s.regs := by
  simp only [goOnWindows]
  (repeat' split) <;> simp

@[simp] theorem beginWindows_regs (s : State) : (beginWindows s).regs = s.regs := by
  simp [beginWindows]

@[simp] theorem refreshRead_regs (data : Word) (s : State) : (refreshRead data s).regs = s.regs := by
  simp only [refreshRead]
  (repeat' split) <;> simp

@[simp] theorem sweepNext_regs (s : State) : (sweepNext s).regs = s.regs := by
  simp only [sweepNext]
  (repeat' split) <;> simp

@[simp] theorem poll_regs (s : State) : (poll s).regs = s.regs := by
  simp [poll]

@[simp] theorem beginAction_regs (req : CustodyReq) (s : State) : (beginAction req s).regs = s.regs := by
  simp [beginAction]

@[simp] theorem serveCustody_regs (s : State) : (serveCustody s).regs = s.regs := by
  simp only [serveCustody]
  (repeat' split) <;> simp

@[simp] theorem recordWrites_regs (c : Nat) (l : List (Nat × Word)) (s : State) :
    (recordWrites c l s).regs = s.regs := by
  induction l generalizing s with
  | nil => rfl
  | cons x l ih => cases l <;> simp_all [recordWrites]

@[simp] theorem setPhase_regs (p : ActionPhase) (s : State) : (setPhase p s).regs = s.regs := by
  simp only [setPhase]
  (repeat' split) <;> simp

@[simp] theorem becomeState_regs (c : Nat) (e : EngineState) (s : State) : (becomeState c e s).regs = s.regs := by
  simp [becomeState]

@[simp] theorem reject_regs (c : Nat) (words : RecordWords) (v : Verdict) (campaigns : List Nat) (o : SelectOutcome) (s : State) : (reject c words v campaigns o s).regs = s.regs := by
  simp [reject]

@[simp] theorem beginRoute_regs (c : Nat) (words : RecordWords) (s : State) : (beginRoute c words s).regs = s.regs := by
  simp [beginRoute]

@[simp] theorem compareRead_regs (i : Fin 64) (words : RecordWords) (s : State) : (compareRead i words s).regs = s.regs := by
  simp only [compareRead]
  (repeat' split) <;> simp

@[simp] theorem journalWrites_regs (g : Tag) (o : Nat) (l : List Word) (s : State) :
    (journalWrites g o l s).regs = s.regs := by
  induction l generalizing o s with
  | nil => rfl
  | cons x l ih => cases l <;> simp_all [journalWrites]

@[simp] theorem writeEntry_regs (p : Placement) (e : JournalEntry) (s : State) : (writeEntry p e s).regs = s.regs := by
  simp only [writeEntry]
  (repeat' split) <;> simp

@[simp] theorem readControlBlock_regs (k : Nat) (s : State) : (readControlBlock k s).regs = s.regs := by
  simp [readControlBlock]

@[simp] theorem clearingStep_regs (s : State) : (clearingStep s).regs = s.regs := by
  simp [clearingStep]

@[simp] theorem journalStep_regs (s : State) : (journalStep s).regs = s.regs := by
  simp [journalStep]

@[simp] theorem startLink_regs (s : State) (k : Fin 4) : (startLink s k).regs = s.regs := by
  simp only [startLink]
  (repeat' split) <;> simp

@[simp] theorem linkStep_regs (s : State) : (linkStep s).regs = s.regs := by
  simp [linkStep]

@[simp] theorem beginCustodyStep_regs (s : State) : (beginCustodyStep s).regs = s.regs := by
  simp [beginCustodyStep]

@[simp] theorem goOnLoadWindows_regs (s : State) : (goOnLoadWindows s).regs = s.regs := by
  simp only [goOnLoadWindows]
  (repeat' split) <;> simp

@[simp] theorem beginWindowStep_regs (s : State) : (beginWindowStep s).regs = s.regs := by
  simp [beginWindowStep]

@[simp] theorem loadSteps_regs (ws : List Word) (s : State) : (loadSteps ws s).regs = s.regs := by
  simp [loadSteps]

@[simp] theorem loadWindowRead_regs (data : Word) (s : State) : (loadWindowRead data s).regs = s.regs := by
  simp only [loadWindowRead]
  (repeat' split) <;> simp

@[simp] theorem dropSelection_regs (s : State) (r : CustodyReq) : (dropSelection s r).regs = s.regs := by
  simp only [dropSelection]
  (repeat' split) <;> simp

@[simp] theorem haltAction_regs (s : State) : (haltAction s).regs = s.regs := by
  simp only [haltAction]
  (repeat' split) <;> simp

@[simp] theorem haltQueue_regs (s : State) : (haltQueue s).regs = s.regs := by
  simp [haltQueue]

@[simp] theorem haltRefresh_regs (s : State) : (haltRefresh s).regs = s.regs := by
  simp [haltRefresh]

@[simp] theorem haltReader_regs (s : State) : (haltReader s).regs = s.regs := by
  simp [haltReader]

@[simp] theorem haltLoadAction_regs (s : State) : (haltLoadAction s).regs = s.regs := by
  simp only [haltLoadAction]
  (repeat' split) <;> simp

@[simp] theorem launchOne_regs (k : Fin 4) (p : PickResult) (i : Fin 64) (s : State) : (launchOne k p i s).regs = s.regs := by
  simp only [launchOne]
  (repeat' split) <;> simp

@[simp] theorem launchLoop_regs (k : Fin 4) (n : Nat) (s : State) : (launchLoop k n s).regs = s.regs := by
  induction n generalizing s with
  | zero => rfl
  | succ n ih => simp only [launchLoop]; (repeat' split) <;> simp [ih]

@[simp] theorem serveLaunches_regs (s : State) : (serveLaunches s).regs = s.regs := by
  simp [serveLaunches]

@[simp] theorem serveStop_regs (s : State) : (serveStop s).regs = s.regs := by
  simp only [serveStop]
  (repeat' split) <;> simp

@[simp] theorem monitorTo_regs (k : Fin 4) (st : LinkState) (timer : Option Nat) (s : State) : (monitorTo k st timer s).regs = s.regs := by
  simp [monitorTo]

@[simp] theorem signalLost_regs (k : Fin 4) (s : State) : (signalLost k s).regs = s.regs := by
  simp only [signalLost]
  (repeat' split) <;> simp

@[simp] theorem signalPresent_regs (k : Fin 4) (s : State) : (signalPresent k s).regs = s.regs := by
  simp only [signalPresent]
  (repeat' split) <;> simp

@[simp] theorem receiveFrame_regs (k : Fin 4) (frame : List Byte) (s : State) : (receiveFrame k frame s).regs = s.regs := by
  simp only [receiveFrame]
  (repeat' split) <;> simp

@[simp] theorem countTimers_regs (s : State) : (countTimers s).regs = s.regs := by
  simp only [countTimers]
  (repeat' split) <;> simp

end Sys2Proof.Machine
end

