-- ==== Sys2Proof/Laws/HostSide.lean ====
section
/-! SUPPORT. The host side under the operations that change links or the FIFO, and under a whole event's service. -/

namespace Sys2Proof.Machine

theorem hostSide_eq (s : State) : s.hostSide = s.surround.host := rfl

theorem foldl_host {α : Type} (f : State → α → State) (h : ∀ t a, (f t a).surround.host = t.surround.host) (l : List α)
    (s : State) : (l.foldl f s).surround.host = s.surround.host := by
  induction l generalizing s with
  | nil => rfl
  | cons a l ih => simp [ih, h]

@[simp] theorem links_host (s : State) (x : Vector Link 4) : ({ s with links := x } : State).surround.host = s.surround.host := rfl

@[simp] theorem fifo_host (s : State) (x : List Echo) : ({ s with fifo := x } : State).surround.host = s.surround.host := rfl

@[simp] theorem modJournal_host (f : Journal → Journal) (s : State) : (modJournal f s).surround.host = s.surround.host := rfl

@[simp] theorem markWrite_host (value : Word) (s : State) : (markWrite value s).surround.host = s.surround.host := by
  simp only [markWrite]
  split <;> simp

@[simp] theorem entryWritten_host (s : State) : (entryWritten s).surround.host = s.surround.host := by
  simp only [entryWritten]
  split <;> simp

@[simp] theorem journalStep_host (s : State) : (journalStep s).surround.host = s.surround.host := by
  simp [journalStep]

@[simp] theorem modLink_host (k : Fin 4) (f : Link → Link) (s : State) : (modLink k f s).surround.host = s.surround.host := rfl

@[simp] theorem modCounters_host (k : Fin 4) (f : LinkCounters → LinkCounters) (s : State) :
    (modCounters k f s).surround.host = s.surround.host := rfl

@[simp] theorem commitFrame_host (k : Fin 4) (frame : List Byte) (s : State) :
    (commitFrame k frame s).surround.host = s.surround.host := rfl

@[simp] theorem launch_host (k : Fin 4) (p : PickResult) (i : Fin 64) (s : State) :
    (launch k p i s).surround.host = s.surround.host := by
  simp [launch]

@[simp] theorem takeEcho_host (e : Echo) (rest : List Echo) (s : State) :
    (takeEcho e rest s).surround.host = s.surround.host := by
  simp only [takeEcho]
  split <;> simp

@[simp] theorem takeOne_host (s : State) : (takeOne s).surround.host = s.surround.host := by
  simp only [takeOne]
  (repeat' split) <;> simp

@[simp] theorem takeLoop_host (n : Nat) (s : State) : (takeLoop n s).surround.host = s.surround.host := by
  induction n generalizing s with
  | zero => rfl
  | succ n ih => simp only [takeLoop]; split <;> simp [ih]

@[simp] theorem serveComparator_host (s : State) : (serveComparator s).surround.host = s.surround.host := by
  simp [serveComparator]

@[simp] theorem launchOne_host (k : Fin 4) (p : PickResult) (i : Fin 64) (s : State) :
    (launchOne k p i s).surround.host = s.surround.host := by
  simp only [launchOne]
  split <;> simp

@[simp] theorem launchLoop_host (k : Fin 4) (n : Nat) (s : State) : (launchLoop k n s).surround.host = s.surround.host := by
  induction n generalizing s with
  | zero => rfl
  | succ n ih => simp only [launchLoop]; (repeat' split) <;> simp [ih]

@[simp] theorem serveLaunches_host (s : State) : (serveLaunches s).surround.host = s.surround.host :=
  foldl_host _ (fun t k => launchLoop_host k 128 t) _ s

@[simp] theorem settle_host (s : State) : (settle s).surround.host = s.surround.host := by
  simp only [settle, issue_surround, surround_eventNo]
  simp

/-- A whole event's service leaves the host side as it stands. -/
theorem settle_hostSide (s : State) : (settle s).hostSide = s.hostSide := settle_host s

@[simp] theorem monitorTo_host (k : Fin 4) (st : LinkState) (timer : Option Nat) (s : State) :
    (monitorTo k st timer s).surround.host = s.surround.host := by
  simp [monitorTo]

@[simp] theorem signalLost_host (k : Fin 4) (s : State) : (signalLost k s).surround.host = s.surround.host := by
  simp only [signalLost]
  (repeat' split) <;> simp

@[simp] theorem signalPresent_host (k : Fin 4) (s : State) : (signalPresent k s).surround.host = s.surround.host := by
  simp only [signalPresent]
  (repeat' split) <;> simp

theorem reportChange_host (k : Fin 4) (act : State → State) (h : ∀ s, (act s).surround = s.surround) (s : State) :
    (reportChange k act s).surround.host = s.surround.host := by
  simp only [reportChange]
  split <;> simp [h]

@[simp] theorem holdOffExpires_host (k : Fin 4) (s : State) : (holdOffExpires k s).surround.host = s.surround.host := by
  simp only [holdOffExpires]
  split <;> simp [reportChange_host]

@[simp] theorem receiveFrame_host (k : Fin 4) (frame : List Byte) (s : State) :
    (receiveFrame k frame s).surround.host = s.surround.host := by
  simp only [receiveFrame]
  (repeat' split) <;> simp

@[simp] theorem startLink_host (s : State) (k : Fin 4) : (startLink s k).surround.host = s.surround.host := by
  simp [startLink]

@[simp] theorem linkStep_host (s : State) : (linkStep s).surround.host = s.surround.host :=
  foldl_host _ startLink_host _ s

@[simp] theorem clearingStep_host (s : State) : (clearingStep s).surround.host = s.surround.host := by
  simp only [clearingStep, statusWrite_surround, slotWordsWrite_surround]
  exact (show _ = (orphan (fun g => decide (g ≠ .phaseWord)) s).surround.host from rfl).trans
    (congrArg Surround.host (orphan_surround _ s))

@[simp] theorem countTimers_host (s : State) : (countTimers s).surround.host = s.surround.host := by
  simp only [countTimers]
  split <;> rfl

end Sys2Proof.Machine
end

