-- ==== Sys2Proof/Laws/RunState.lean ====
section
/-! SUPPORT. What the blocks' work can do to the register window: set event bits, take or clear POLL_NOW, and end a load. -/

namespace Sys2Proof.Machine

/-- The register window as the blocks' work can change it: no event bit is cleared (10 R171), and the run state stays or goes from
LOADING to RUNNING (10 R176). -/
structure Drift (r r' : Regs) : Prop where
  run : r'.runState = r.runState ∨ (r.runState = .loading ∧ r'.runState = .running)
  events : r'.events &&& r.events = r.events

@[simp] theorem Drift.refl (r : Regs) : Drift r r := ⟨.inl rfl, by simp⟩

theorem Drift.trans {a b c : Regs} (h : Drift a b) (k : Drift b c) : Drift a c := by
  refine ⟨?_, ?_⟩
  · rcases h.run with h1 | ⟨h1, h2⟩ <;> rcases k.run with k1 | ⟨k1, k2⟩ <;> simp_all
  · rw [← h.events, ← BitVec.and_assoc, k.events]

theorem setEvent_step (e : Event) (s : State) : Drift s.regs (setEvent e s).regs := by
  refine ⟨.inl rfl, ?_⟩
  simp only [setEvent]
  ext i
  simp
  exact fun h => .inl h

@[simp] theorem setEvent_drift {r : Regs} (e : Event) (s : State) (h : Drift r s.regs) : Drift r (setEvent e s).regs :=
  h.trans (setEvent_step e s)

theorem beginSweep_step (s : State) : Drift s.regs (beginSweep s).regs := ⟨.inl rfl, by simp [beginSweep, askCustody, modReader]⟩

@[simp] theorem beginSweep_drift {r : Regs} (s : State) (h : Drift r s.regs) : Drift r (beginSweep s).regs :=
  h.trans (beginSweep_step s)

@[simp] theorem summaryWritten_drift {r : Regs} (i : Fin 8) (s : State) (h : Drift r s.regs) : Drift r (summaryWritten i s).regs := by
  simp [summaryWritten, h]

@[simp] theorem trigger_drift {r : Regs} (s : State) (h : Drift r s.regs) : Drift r (trigger s).regs := by
  simp only [trigger]
  (repeat' split) <;> simp [h]

@[simp] theorem endSweep_drift {r : Regs} (s : State) (h : Drift r s.regs) : Drift r (endSweep s).regs := by
  simp only [endSweep]
  (repeat' split) <;> simp [h]

@[simp] theorem controlRead_drift {r : Regs} (data : Word) (s : State) (h : Drift r s.regs) : Drift r (controlRead data s).regs := by
  simp only [controlRead]
  (repeat' split) <;> simp [h]

@[simp] theorem handbackDone_drift {r : Regs} (s : State) (h : Drift r s.regs) : Drift r (handbackDone s).regs := by
  simp only [handbackDone]
  (repeat' split) <;> simp [h]

@[simp] theorem epochRead_drift {r : Regs} (data : Word) (s : State) (h : Drift r s.regs) : Drift r (epochRead data s).regs := by
  simp only [epochRead]
  (repeat' split) <;> simp [h]

/-- The run state becomes RUNNING from LOADING. -/
theorem setRunning_drift {r : Regs} (s : State) (hl : s.run = .loading) (h : Drift r s.regs) :
    Drift r (setRun .running s).regs :=
  h.trans ⟨.inr ⟨hl, rfl⟩, by simp [setRun]⟩

theorem enterRunning_drift {r : Regs} (s : State) (hl : s.run = .loading) (h : Drift r s.regs) :
    Drift r (enterRunning s).regs := by
  have h' (t : State) (ht : t.regs = s.regs) : Drift r (setRun .running t).regs :=
    setRunning_drift t (by simpa [State.run, ht] using hl) (by simpa [ht] using h)
  simp only [enterRunning]
  split
  · exact trigger_drift _ (setEvent_drift _ _ (by simpa using h' _ (by simp)))
  · exact setEvent_drift _ _ (by simpa using h' _ (by simp))

@[simp] theorem loadNext_drift {r : Regs} (s : State) (h : Drift r s.regs) : Drift r (loadNext s).regs := by
  simp only [loadNext]
  split
  · rename_i hl
    split
    · simp [h]
    · exact enterRunning_drift _ (by simpa [State.run] using hl.1) (by simp [h])
  · exact h

@[simp] theorem endAction_drift {r : Regs} (o : SelectOutcome) (s : State) (h : Drift r s.regs) : Drift r (endAction o s).regs := by
  simp only [endAction]
  (repeat' split) <;> simp [h]

@[simp] theorem accept_drift {r : Regs} (c : Nat) (words : RecordWords) (isLoad : Bool) (o : SelectOutcome) (s : State) (h : Drift r s.regs) : Drift r (accept c words isLoad o s).regs := by
  simp only [accept]
  (repeat' split) <;> simp [h]

@[simp] theorem actionWritten_drift {r : Regs} (s : State) (h : Drift r s.regs) : Drift r (actionWritten s).regs := by
  simp only [actionWritten]
  (repeat' split) <;> simp [h]

@[simp] theorem custodyEntryDone_drift {r : Regs} (s : State) (h : Drift r s.regs) : Drift r (custodyEntryDone s).regs := by
  simp only [custodyEntryDone]
  (repeat' split) <;> simp [h]

@[simp] theorem routeResult_drift {r : Regs} (a : Action) (words : RecordWords) (w4 : Word) (route : Option Route) (s : State) (h : Drift r s.regs) : Drift r (routeResult a words w4 route s).regs := by
  simp only [routeResult]
  (repeat' split) <;> simp [h]

@[simp] theorem routeEnd_drift {r : Regs} (a : Action) (words : RecordWords) (w4 : Word) (route : Option Route) (s : State) (h : Drift r s.regs) : Drift r (routeEnd a words w4 route s).regs := by
  simp only [routeEnd]
  (repeat' split) <;> simp [h]

@[simp] theorem routeRead_drift {r : Regs} (data : Word) (s : State) (h : Drift r s.regs) : Drift r (routeRead data s).regs := by
  simp only [routeRead]
  (repeat' split) <;> simp [h]

@[simp] theorem afterHostAction_drift {r : Regs} (a : Action) (words : RecordWords) (s : State) (h : Drift r s.regs) : Drift r (afterHostAction a words s).regs := by
  simp only [afterHostAction]
  (repeat' split) <;> simp [h]

@[simp] theorem followHostAction_drift {r : Regs} (a : Action) (words : RecordWords) (d : HostAction) (s : State) (h : Drift r s.regs) :
    Drift r (followHostAction a words d s).regs := by
  simp only [followHostAction]
  (repeat' split) <;> simp [h]

@[simp] theorem applyRecord_drift {r : Regs} (a : Action) (words : RecordWords) (s : State) (h : Drift r s.regs) : Drift r (applyRecord a words s).regs := by
  simp only [applyRecord]
  (repeat' split) <;> simp [h]

@[simp] theorem recordDone_drift {r : Regs} (a : Action) (words : RecordWords) (s : State) (h : Drift r s.regs) : Drift r (recordDone a words s).regs := by
  simp only [recordDone]
  (repeat' split) <;> simp [h]

@[simp] theorem recordRead_drift {r : Regs} (data : Word) (s : State) (h : Drift r s.regs) : Drift r (recordRead data s).regs := by
  simp only [recordRead]
  (repeat' split) <;> simp [h]

@[simp] theorem toldWritten_drift {r : Regs} (x0 : Source) (s : State) (h : Drift r s.regs) : Drift r (toldWritten x0 s).regs := by
  simp only [toldWritten]
  (repeat' split) <;> simp [h]

@[simp] theorem toldAbandoned_drift {r : Regs} (x0 : Source) (s : State) (h : Drift r s.regs) : Drift r (toldAbandoned x0 s).regs := by
  simp only [toldAbandoned]
  (repeat' split) <;> simp [h]

@[simp] theorem abandonHand_drift {r : Regs} (s : State) (h : Drift r s.regs) : Drift r (abandonHand s).regs := by
  simp only [abandonHand]
  (repeat' split) <;> simp [h]

@[simp] theorem noRoom_drift {r : Regs} (s : State) (h : Drift r s.regs) : Drift r (noRoom s).regs := by
  simp only [noRoom]
  (repeat' split) <;> simp [h]

@[simp] theorem placeHand_drift {r : Regs} (s : State) (h : Drift r s.regs) : Drift r (placeHand s).regs := by
  simp only [placeHand]
  (repeat' split) <;> simp [h]

@[simp] theorem takeEntry_drift {r : Regs} (s : State) (h : Drift r s.regs) : Drift r (takeEntry s).regs := by
  simp only [takeEntry]
  (repeat' split) <;> simp [h]

@[simp] theorem serveJournalLoop_drift {r : Regs} (n : Nat) (s : State) (h : Drift r s.regs) :
    Drift r (serveJournalLoop n s).regs := by
  induction n generalizing s with
  | zero => exact h
  | succ n ih => simp only [serveJournalLoop]; split <;> simp [ih, h]

@[simp] theorem serveJournal_drift {r : Regs} (s : State) (h : Drift r s.regs) : Drift r (serveJournal s).regs := by
  simp [serveJournal, h]

@[simp] theorem entryWritten_drift {r : Regs} (s : State) (h : Drift r s.regs) : Drift r (entryWritten s).regs := by
  simp only [entryWritten]
  (repeat' split) <;> simp [h]

@[simp] theorem markWrite_drift {r : Regs} (value : Word) (s : State) (h : Drift r s.regs) : Drift r (markWrite value s).regs := by
  simp only [markWrite]
  (repeat' split) <;> simp [h]

@[simp] theorem settle_drift {r : Regs} (s : State) (h : Drift r s.regs) : Drift r (settle s).regs := by
  simp [settle, h]

/-! ### Where the run state stays -/

theorem Drift.run_eq {r r' : Regs} (h : Drift r r') (hr : r.runState ≠ .loading) : r'.runState = r.runState := by
  rcases h.run with h | ⟨h, -⟩
  · exact h
  · exact absurd h hr

/-- An entry without room changes no run state: it is abandoned in STOPPING only, and no load is in flight then. -/
theorem noRoom_run (s : State) : (noRoom s).run = s.run := by
  by_cases h : s.run = .stopping
  · exact (noRoom_drift (r := s.regs) s (Drift.refl _)).run_eq (by simp_all [State.run])
  · simp only [noRoom, if_neg h]
    split <;> simp [State.run, setEvent]

theorem placeHand_run (s : State) : (placeHand s).run = s.run := by
  simp only [placeHand]
  (repeat' split) <;> first | rfl | exact noRoom_run s | simp [State.run]

theorem takeEntry_run (s : State) : (takeEntry s).run = s.run := by
  simp only [takeEntry]
  (repeat' split) <;> first | rfl | exact placeHand_run _

theorem serveJournal_run (s : State) : (serveJournal s).run = s.run := by
  have loop (n : Nat) (s : State) : (serveJournalLoop n s).run = s.run := by
    induction n generalizing s with
    | zero => rfl
    | succ n ih => simp only [serveJournalLoop]; split <;> simp [ih, takeEntry_run]
  exact loop 3 s

/-- A whole event's service changes no run state. -/
theorem settle_run (s : State) : (settle s).run = s.run := by
  have h := serveJournal_run (serveSummaries (serveLaunches (serveComparator (serveClaims (serveGrants s)))))
  simp only [State.run] at h ⊢
  simpa [settle] using h

theorem markWrite_run (value : Word) (s : State) : (markWrite value s).run = s.run := by
  simp only [markWrite]
  split
  · rw [placeHand_run]; rfl
  · rfl

/-- What HALTED does to the journal (08 R155) touches no register outside RUNNING and LOADING. -/
theorem haltJournal_regs (t : State) (h1 : t.run ≠ .running) (h2 : t.run ≠ .loading) : (haltJournal t).regs = t.regs := by
  simp only [haltJournal, abandonHand]
  split
  · split
    · rename_i src e hh
      generalize hu : modJournal (fun j => { j with phase := .idle, hand := none }) t = u
      have ur : u.regs = t.regs := by rw [← hu]; rfl
      rw [← ur]
      have r1 : u.run ≠ .running := by simpa [State.run, ur] using h1
      have r2 : u.run ≠ .loading := by simpa [State.run, ur] using h2
      cases src <;> simp only [toldAbandoned]
      · simp
      · simp only [custodyEntryDone]
        split
        · split <;> try rfl
          simp only [endAction]
          split
          · have r1' (a : Option Action) : (setAction a u).run ≠ .running := r1
            have r2' (a : Option Action) : (setAction a u).run ≠ .loading := r2
            (repeat' split) <;> simp [sweepNext, loadNext, r1', r2']
          · rfl
        · rfl
      · simp
    · rfl
  · rfl

end Sys2Proof.Machine
end

