-- ==== Sys2Proof/Laws/Tables.lean ====
section
/-! SUPPORT. Fixed tables: an element replaced, every element replaced. -/

namespace Sys2Proof.Machine

variable {α β : Type} {n : Nat}

theorem get_eq_getElem (v : Vector α n) (i : Fin n) : v.get i = v[i.val] := rfl

@[simp] theorem vput_get_same (v : Vector α n) (i : Fin n) (x : α) : (vput v i x).get i = x := by
  simp only [get_eq_getElem, vput, Vector.getElem_set_self]

theorem vput_get_other (v : Vector α n) (i j : Fin n) (x : α) (h : j ≠ i) : (vput v i x).get j = v.get j := by
  simp only [get_eq_getElem, vput]
  exact Vector.getElem_set_ne i.isLt j.isLt (fun e => h (Fin.ext e.symm))

theorem vput_get (v : Vector α n) (i j : Fin n) (x : α) : (vput v i x).get j = if j = i then x else v.get j := by
  split
  · rename_i h; subst h; simp
  · rename_i h; exact vput_get_other v i j x h

@[simp] theorem vmap_get (f : α → β) (v : Vector α n) (i : Fin n) : (vmap f v).get i = f (v.get i) := by
  simp [get_eq_getElem, vmap]

@[simp] theorem replicate_get (x : α) (i : Fin n) : (Vector.replicate n x).get i = x := by
  simp [get_eq_getElem]

/-- A table is its elements. -/
theorem table_ext (v w : Vector α n) (h : ∀ i : Fin n, v.get i = w.get i) : v = w := by
  ext i hi
  exact h ⟨i, hi⟩

end Sys2Proof.Machine
end

