-- ==== Sys2Proof/Laws/State.lean ====
section
/-! SUPPORT. Every field of the state under every small update of Machine/Ops.lean and its neighbours: one lemma per field per
update, true by unfolding, and what each update does to the element it is about. -/

namespace Sys2Proof.Machine

/-! ### setEvent -/

@[simp] theorem setEvent_pending (e : Event) (s : State) : (setEvent e s).pending = s.pending := rfl

@[simp] theorem setEvent_held (e : Event) (s : State) : (setEvent e s).held = s.held := rfl

@[simp] theorem setEvent_clock (e : Event) (s : State) : (setEvent e s).clock = s.clock := rfl

@[simp] theorem setEvent_params (e : Event) (s : State) : (setEvent e s).params = s.params := rfl

@[simp] theorem setEvent_loader (e : Event) (s : State) : (setEvent e s).loader = s.loader := rfl

@[simp] theorem setEvent_master (e : Event) (s : State) : (setEvent e s).master = s.master := rfl

@[simp] theorem setEvent_memory (e : Event) (s : State) : (setEvent e s).memory = s.memory := rfl

@[simp] theorem setEvent_custody (e : Event) (s : State) : (setEvent e s).custody = s.custody := rfl

@[simp] theorem setEvent_sched (e : Event) (s : State) : (setEvent e s).sched = s.sched := rfl

@[simp] theorem setEvent_ctrl (e : Event) (s : State) : (setEvent e s).ctrl = s.ctrl := rfl

@[simp] theorem setEvent_probes (e : Event) (s : State) : (setEvent e s).probes = s.probes := rfl

@[simp] theorem setEvent_links (e : Event) (s : State) : (setEvent e s).links = s.links := rfl

@[simp] theorem setEvent_fifo (e : Event) (s : State) : (setEvent e s).fifo = s.fifo := rfl

@[simp] theorem setEvent_cmp (e : Event) (s : State) : (setEvent e s).cmp = s.cmp := rfl

@[simp] theorem setEvent_journal (e : Event) (s : State) : (setEvent e s).journal = s.journal := rfl

@[simp] theorem setEvent_reader (e : Event) (s : State) : (setEvent e s).reader = s.reader := rfl

@[simp] theorem setEvent_freeCount (e : Event) (s : State) : (setEvent e s).freeCount = s.freeCount := rfl

@[simp] theorem setEvent_eventNo (e : Event) (s : State) : (setEvent e s).eventNo = s.eventNo := rfl

/-! ### setRun -/

@[simp] theorem setRun_pending (r : RunState) (s : State) : (setRun r s).pending = s.pending := rfl

@[simp] theorem setRun_held (r : RunState) (s : State) : (setRun r s).held = s.held := rfl

@[simp] theorem setRun_clock (r : RunState) (s : State) : (setRun r s).clock = s.clock := rfl

@[simp] theorem setRun_params (r : RunState) (s : State) : (setRun r s).params = s.params := rfl

@[simp] theorem setRun_loader (r : RunState) (s : State) : (setRun r s).loader = s.loader := rfl

@[simp] theorem setRun_master (r : RunState) (s : State) : (setRun r s).master = s.master := rfl

@[simp] theorem setRun_memory (r : RunState) (s : State) : (setRun r s).memory = s.memory := rfl

@[simp] theorem setRun_custody (r : RunState) (s : State) : (setRun r s).custody = s.custody := rfl

@[simp] theorem setRun_sched (r : RunState) (s : State) : (setRun r s).sched = s.sched := rfl

@[simp] theorem setRun_ctrl (r : RunState) (s : State) : (setRun r s).ctrl = s.ctrl := rfl

@[simp] theorem setRun_probes (r : RunState) (s : State) : (setRun r s).probes = s.probes := rfl

@[simp] theorem setRun_links (r : RunState) (s : State) : (setRun r s).links = s.links := rfl

@[simp] theorem setRun_fifo (r : RunState) (s : State) : (setRun r s).fifo = s.fifo := rfl

@[simp] theorem setRun_cmp (r : RunState) (s : State) : (setRun r s).cmp = s.cmp := rfl

@[simp] theorem setRun_journal (r : RunState) (s : State) : (setRun r s).journal = s.journal := rfl

@[simp] theorem setRun_reader (r : RunState) (s : State) : (setRun r s).reader = s.reader := rfl

@[simp] theorem setRun_freeCount (r : RunState) (s : State) : (setRun r s).freeCount = s.freeCount := rfl

@[simp] theorem setRun_eventNo (r : RunState) (s : State) : (setRun r s).eventNo = s.eventNo := rfl

/-! ### modEntry -/

@[simp] theorem modEntry_pending (i : Fin 64) (f : Entry → Entry) (s : State) : (modEntry i f s).pending = s.pending := rfl

@[simp] theorem modEntry_held (i : Fin 64) (f : Entry → Entry) (s : State) : (modEntry i f s).held = s.held := rfl

@[simp] theorem modEntry_clock (i : Fin 64) (f : Entry → Entry) (s : State) : (modEntry i f s).clock = s.clock := rfl

@[simp] theorem modEntry_params (i : Fin 64) (f : Entry → Entry) (s : State) : (modEntry i f s).params = s.params := rfl

@[simp] theorem modEntry_loader (i : Fin 64) (f : Entry → Entry) (s : State) : (modEntry i f s).loader = s.loader := rfl

@[simp] theorem modEntry_master (i : Fin 64) (f : Entry → Entry) (s : State) : (modEntry i f s).master = s.master := rfl

@[simp] theorem modEntry_memory (i : Fin 64) (f : Entry → Entry) (s : State) : (modEntry i f s).memory = s.memory := rfl

@[simp] theorem modEntry_custody (i : Fin 64) (f : Entry → Entry) (s : State) : (modEntry i f s).custody = s.custody := rfl

@[simp] theorem modEntry_sched (i : Fin 64) (f : Entry → Entry) (s : State) : (modEntry i f s).sched = s.sched := rfl

@[simp] theorem modEntry_ctrl (i : Fin 64) (f : Entry → Entry) (s : State) : (modEntry i f s).ctrl = s.ctrl := rfl

@[simp] theorem modEntry_links (i : Fin 64) (f : Entry → Entry) (s : State) : (modEntry i f s).links = s.links := rfl

@[simp] theorem modEntry_fifo (i : Fin 64) (f : Entry → Entry) (s : State) : (modEntry i f s).fifo = s.fifo := rfl

@[simp] theorem modEntry_cmp (i : Fin 64) (f : Entry → Entry) (s : State) : (modEntry i f s).cmp = s.cmp := rfl

@[simp] theorem modEntry_journal (i : Fin 64) (f : Entry → Entry) (s : State) : (modEntry i f s).journal = s.journal := rfl

@[simp] theorem modEntry_reader (i : Fin 64) (f : Entry → Entry) (s : State) : (modEntry i f s).reader = s.reader := rfl

@[simp] theorem modEntry_freeCount (i : Fin 64) (f : Entry → Entry) (s : State) : (modEntry i f s).freeCount = s.freeCount := rfl

@[simp] theorem modEntry_eventNo (i : Fin 64) (f : Entry → Entry) (s : State) : (modEntry i f s).eventNo = s.eventNo := rfl

/-! ### modSched -/

@[simp] theorem modSched_pending (k : Fin 4) (f : LaunchSched → LaunchSched) (s : State) : (modSched k f s).pending = s.pending := rfl

@[simp] theorem modSched_held (k : Fin 4) (f : LaunchSched → LaunchSched) (s : State) : (modSched k f s).held = s.held := rfl

@[simp] theorem modSched_clock (k : Fin 4) (f : LaunchSched → LaunchSched) (s : State) : (modSched k f s).clock = s.clock := rfl

@[simp] theorem modSched_params (k : Fin 4) (f : LaunchSched → LaunchSched) (s : State) : (modSched k f s).params = s.params := rfl

@[simp] theorem modSched_loader (k : Fin 4) (f : LaunchSched → LaunchSched) (s : State) : (modSched k f s).loader = s.loader := rfl

@[simp] theorem modSched_master (k : Fin 4) (f : LaunchSched → LaunchSched) (s : State) : (modSched k f s).master = s.master := rfl

@[simp] theorem modSched_memory (k : Fin 4) (f : LaunchSched → LaunchSched) (s : State) : (modSched k f s).memory = s.memory := rfl

@[simp] theorem modSched_custody (k : Fin 4) (f : LaunchSched → LaunchSched) (s : State) : (modSched k f s).custody = s.custody := rfl

@[simp] theorem modSched_sched (k : Fin 4) (f : LaunchSched → LaunchSched) (s : State) : (modSched k f s).sched = s.sched := rfl

@[simp] theorem modSched_ctrl (k : Fin 4) (f : LaunchSched → LaunchSched) (s : State) : (modSched k f s).ctrl = s.ctrl := rfl

@[simp] theorem modSched_links (k : Fin 4) (f : LaunchSched → LaunchSched) (s : State) : (modSched k f s).links = s.links := rfl

@[simp] theorem modSched_fifo (k : Fin 4) (f : LaunchSched → LaunchSched) (s : State) : (modSched k f s).fifo = s.fifo := rfl

@[simp] theorem modSched_cmp (k : Fin 4) (f : LaunchSched → LaunchSched) (s : State) : (modSched k f s).cmp = s.cmp := rfl

@[simp] theorem modSched_journal (k : Fin 4) (f : LaunchSched → LaunchSched) (s : State) : (modSched k f s).journal = s.journal := rfl

@[simp] theorem modSched_reader (k : Fin 4) (f : LaunchSched → LaunchSched) (s : State) : (modSched k f s).reader = s.reader := rfl

@[simp] theorem modSched_freeCount (k : Fin 4) (f : LaunchSched → LaunchSched) (s : State) : (modSched k f s).freeCount = s.freeCount := rfl

@[simp] theorem modSched_eventNo (k : Fin 4) (f : LaunchSched → LaunchSched) (s : State) : (modSched k f s).eventNo = s.eventNo := rfl

/-! ### setOutcomes -/

@[simp] theorem setOutcomes_pending (l : List (Fin 64)) (s : State) : (setOutcomes l s).pending = s.pending := rfl

@[simp] theorem setOutcomes_held (l : List (Fin 64)) (s : State) : (setOutcomes l s).held = s.held := rfl

@[simp] theorem setOutcomes_clock (l : List (Fin 64)) (s : State) : (setOutcomes l s).clock = s.clock := rfl

@[simp] theorem setOutcomes_params (l : List (Fin 64)) (s : State) : (setOutcomes l s).params = s.params := rfl

@[simp] theorem setOutcomes_loader (l : List (Fin 64)) (s : State) : (setOutcomes l s).loader = s.loader := rfl

@[simp] theorem setOutcomes_master (l : List (Fin 64)) (s : State) : (setOutcomes l s).master = s.master := rfl

@[simp] theorem setOutcomes_memory (l : List (Fin 64)) (s : State) : (setOutcomes l s).memory = s.memory := rfl

@[simp] theorem setOutcomes_custody (l : List (Fin 64)) (s : State) : (setOutcomes l s).custody = s.custody := rfl

@[simp] theorem setOutcomes_sched (l : List (Fin 64)) (s : State) : (setOutcomes l s).sched = s.sched := rfl

@[simp] theorem setOutcomes_ctrl (l : List (Fin 64)) (s : State) : (setOutcomes l s).ctrl = s.ctrl := rfl

@[simp] theorem setOutcomes_links (l : List (Fin 64)) (s : State) : (setOutcomes l s).links = s.links := rfl

@[simp] theorem setOutcomes_fifo (l : List (Fin 64)) (s : State) : (setOutcomes l s).fifo = s.fifo := rfl

@[simp] theorem setOutcomes_cmp (l : List (Fin 64)) (s : State) : (setOutcomes l s).cmp = s.cmp := rfl

@[simp] theorem setOutcomes_journal (l : List (Fin 64)) (s : State) : (setOutcomes l s).journal = s.journal := rfl

@[simp] theorem setOutcomes_reader (l : List (Fin 64)) (s : State) : (setOutcomes l s).reader = s.reader := rfl

@[simp] theorem setOutcomes_freeCount (l : List (Fin 64)) (s : State) : (setOutcomes l s).freeCount = s.freeCount := rfl

@[simp] theorem setOutcomes_eventNo (l : List (Fin 64)) (s : State) : (setOutcomes l s).eventNo = s.eventNo := rfl

/-! ### modCampaign -/

@[simp] theorem modCampaign_pending (i : Fin 8) (f : Campaign → Campaign) (s : State) : (modCampaign i f s).pending = s.pending := rfl

@[simp] theorem modCampaign_held (i : Fin 8) (f : Campaign → Campaign) (s : State) : (modCampaign i f s).held = s.held := rfl

@[simp] theorem modCampaign_clock (i : Fin 8) (f : Campaign → Campaign) (s : State) : (modCampaign i f s).clock = s.clock := rfl

@[simp] theorem modCampaign_params (i : Fin 8) (f : Campaign → Campaign) (s : State) : (modCampaign i f s).params = s.params := rfl

@[simp] theorem modCampaign_loader (i : Fin 8) (f : Campaign → Campaign) (s : State) : (modCampaign i f s).loader = s.loader := rfl

@[simp] theorem modCampaign_master (i : Fin 8) (f : Campaign → Campaign) (s : State) : (modCampaign i f s).master = s.master := rfl

@[simp] theorem modCampaign_memory (i : Fin 8) (f : Campaign → Campaign) (s : State) : (modCampaign i f s).memory = s.memory := rfl

@[simp] theorem modCampaign_custody (i : Fin 8) (f : Campaign → Campaign) (s : State) : (modCampaign i f s).custody = s.custody := rfl

@[simp] theorem modCampaign_sched (i : Fin 8) (f : Campaign → Campaign) (s : State) : (modCampaign i f s).sched = s.sched := rfl

@[simp] theorem modCampaign_probes (i : Fin 8) (f : Campaign → Campaign) (s : State) : (modCampaign i f s).probes = s.probes := rfl

@[simp] theorem modCampaign_links (i : Fin 8) (f : Campaign → Campaign) (s : State) : (modCampaign i f s).links = s.links := rfl

@[simp] theorem modCampaign_fifo (i : Fin 8) (f : Campaign → Campaign) (s : State) : (modCampaign i f s).fifo = s.fifo := rfl

@[simp] theorem modCampaign_cmp (i : Fin 8) (f : Campaign → Campaign) (s : State) : (modCampaign i f s).cmp = s.cmp := rfl

@[simp] theorem modCampaign_journal (i : Fin 8) (f : Campaign → Campaign) (s : State) : (modCampaign i f s).journal = s.journal := rfl

@[simp] theorem modCampaign_reader (i : Fin 8) (f : Campaign → Campaign) (s : State) : (modCampaign i f s).reader = s.reader := rfl

@[simp] theorem modCampaign_freeCount (i : Fin 8) (f : Campaign → Campaign) (s : State) : (modCampaign i f s).freeCount = s.freeCount := rfl

@[simp] theorem modCampaign_eventNo (i : Fin 8) (f : Campaign → Campaign) (s : State) : (modCampaign i f s).eventNo = s.eventNo := rfl

/-! ### modCounts -/

@[simp] theorem modCounts_pending (i : Fin 8) (f : Counts → Counts) (s : State) : (modCounts i f s).pending = s.pending := rfl

@[simp] theorem modCounts_held (i : Fin 8) (f : Counts → Counts) (s : State) : (modCounts i f s).held = s.held := rfl

@[simp] theorem modCounts_clock (i : Fin 8) (f : Counts → Counts) (s : State) : (modCounts i f s).clock = s.clock := rfl

@[simp] theorem modCounts_params (i : Fin 8) (f : Counts → Counts) (s : State) : (modCounts i f s).params = s.params := rfl

@[simp] theorem modCounts_loader (i : Fin 8) (f : Counts → Counts) (s : State) : (modCounts i f s).loader = s.loader := rfl

@[simp] theorem modCounts_master (i : Fin 8) (f : Counts → Counts) (s : State) : (modCounts i f s).master = s.master := rfl

@[simp] theorem modCounts_memory (i : Fin 8) (f : Counts → Counts) (s : State) : (modCounts i f s).memory = s.memory := rfl

@[simp] theorem modCounts_custody (i : Fin 8) (f : Counts → Counts) (s : State) : (modCounts i f s).custody = s.custody := rfl

@[simp] theorem modCounts_sched (i : Fin 8) (f : Counts → Counts) (s : State) : (modCounts i f s).sched = s.sched := rfl

@[simp] theorem modCounts_probes (i : Fin 8) (f : Counts → Counts) (s : State) : (modCounts i f s).probes = s.probes := rfl

@[simp] theorem modCounts_links (i : Fin 8) (f : Counts → Counts) (s : State) : (modCounts i f s).links = s.links := rfl

@[simp] theorem modCounts_fifo (i : Fin 8) (f : Counts → Counts) (s : State) : (modCounts i f s).fifo = s.fifo := rfl

@[simp] theorem modCounts_cmp (i : Fin 8) (f : Counts → Counts) (s : State) : (modCounts i f s).cmp = s.cmp := rfl

@[simp] theorem modCounts_journal (i : Fin 8) (f : Counts → Counts) (s : State) : (modCounts i f s).journal = s.journal := rfl

@[simp] theorem modCounts_reader (i : Fin 8) (f : Counts → Counts) (s : State) : (modCounts i f s).reader = s.reader := rfl

@[simp] theorem modCounts_freeCount (i : Fin 8) (f : Counts → Counts) (s : State) : (modCounts i f s).freeCount = s.freeCount := rfl

@[simp] theorem modCounts_eventNo (i : Fin 8) (f : Counts → Counts) (s : State) : (modCounts i f s).eventNo = s.eventNo := rfl

/-! ### setOffer -/

@[simp] theorem setOffer_pending (o : Option (Fin 8)) (s : State) : (setOffer o s).pending = s.pending := rfl

@[simp] theorem setOffer_held (o : Option (Fin 8)) (s : State) : (setOffer o s).held = s.held := rfl

@[simp] theorem setOffer_clock (o : Option (Fin 8)) (s : State) : (setOffer o s).clock = s.clock := rfl

@[simp] theorem setOffer_params (o : Option (Fin 8)) (s : State) : (setOffer o s).params = s.params := rfl

@[simp] theorem setOffer_loader (o : Option (Fin 8)) (s : State) : (setOffer o s).loader = s.loader := rfl

@[simp] theorem setOffer_master (o : Option (Fin 8)) (s : State) : (setOffer o s).master = s.master := rfl

@[simp] theorem setOffer_memory (o : Option (Fin 8)) (s : State) : (setOffer o s).memory = s.memory := rfl

@[simp] theorem setOffer_custody (o : Option (Fin 8)) (s : State) : (setOffer o s).custody = s.custody := rfl

@[simp] theorem setOffer_sched (o : Option (Fin 8)) (s : State) : (setOffer o s).sched = s.sched := rfl

@[simp] theorem setOffer_probes (o : Option (Fin 8)) (s : State) : (setOffer o s).probes = s.probes := rfl

@[simp] theorem setOffer_links (o : Option (Fin 8)) (s : State) : (setOffer o s).links = s.links := rfl

@[simp] theorem setOffer_fifo (o : Option (Fin 8)) (s : State) : (setOffer o s).fifo = s.fifo := rfl

@[simp] theorem setOffer_cmp (o : Option (Fin 8)) (s : State) : (setOffer o s).cmp = s.cmp := rfl

@[simp] theorem setOffer_journal (o : Option (Fin 8)) (s : State) : (setOffer o s).journal = s.journal := rfl

@[simp] theorem setOffer_reader (o : Option (Fin 8)) (s : State) : (setOffer o s).reader = s.reader := rfl

@[simp] theorem setOffer_freeCount (o : Option (Fin 8)) (s : State) : (setOffer o s).freeCount = s.freeCount := rfl

@[simp] theorem setOffer_eventNo (o : Option (Fin 8)) (s : State) : (setOffer o s).eventNo = s.eventNo := rfl

/-! ### modLink -/

@[simp] theorem modLink_pending (k : Fin 4) (f : Link → Link) (s : State) : (modLink k f s).pending = s.pending := rfl

@[simp] theorem modLink_held (k : Fin 4) (f : Link → Link) (s : State) : (modLink k f s).held = s.held := rfl

@[simp] theorem modLink_clock (k : Fin 4) (f : Link → Link) (s : State) : (modLink k f s).clock = s.clock := rfl

@[simp] theorem modLink_params (k : Fin 4) (f : Link → Link) (s : State) : (modLink k f s).params = s.params := rfl

@[simp] theorem modLink_loader (k : Fin 4) (f : Link → Link) (s : State) : (modLink k f s).loader = s.loader := rfl

@[simp] theorem modLink_master (k : Fin 4) (f : Link → Link) (s : State) : (modLink k f s).master = s.master := rfl

@[simp] theorem modLink_memory (k : Fin 4) (f : Link → Link) (s : State) : (modLink k f s).memory = s.memory := rfl

@[simp] theorem modLink_custody (k : Fin 4) (f : Link → Link) (s : State) : (modLink k f s).custody = s.custody := rfl

@[simp] theorem modLink_sched (k : Fin 4) (f : Link → Link) (s : State) : (modLink k f s).sched = s.sched := rfl

@[simp] theorem modLink_ctrl (k : Fin 4) (f : Link → Link) (s : State) : (modLink k f s).ctrl = s.ctrl := rfl

@[simp] theorem modLink_probes (k : Fin 4) (f : Link → Link) (s : State) : (modLink k f s).probes = s.probes := rfl

@[simp] theorem modLink_fifo (k : Fin 4) (f : Link → Link) (s : State) : (modLink k f s).fifo = s.fifo := rfl

@[simp] theorem modLink_cmp (k : Fin 4) (f : Link → Link) (s : State) : (modLink k f s).cmp = s.cmp := rfl

@[simp] theorem modLink_journal (k : Fin 4) (f : Link → Link) (s : State) : (modLink k f s).journal = s.journal := rfl

@[simp] theorem modLink_reader (k : Fin 4) (f : Link → Link) (s : State) : (modLink k f s).reader = s.reader := rfl

@[simp] theorem modLink_freeCount (k : Fin 4) (f : Link → Link) (s : State) : (modLink k f s).freeCount = s.freeCount := rfl

@[simp] theorem modLink_eventNo (k : Fin 4) (f : Link → Link) (s : State) : (modLink k f s).eventNo = s.eventNo := rfl

/-! ### modCounters -/

@[simp] theorem modCounters_pending (k : Fin 4) (f : LinkCounters → LinkCounters) (s : State) : (modCounters k f s).pending = s.pending := rfl

@[simp] theorem modCounters_held (k : Fin 4) (f : LinkCounters → LinkCounters) (s : State) : (modCounters k f s).held = s.held := rfl

@[simp] theorem modCounters_clock (k : Fin 4) (f : LinkCounters → LinkCounters) (s : State) : (modCounters k f s).clock = s.clock := rfl

@[simp] theorem modCounters_params (k : Fin 4) (f : LinkCounters → LinkCounters) (s : State) : (modCounters k f s).params = s.params := rfl

@[simp] theorem modCounters_loader (k : Fin 4) (f : LinkCounters → LinkCounters) (s : State) : (modCounters k f s).loader = s.loader := rfl

@[simp] theorem modCounters_master (k : Fin 4) (f : LinkCounters → LinkCounters) (s : State) : (modCounters k f s).master = s.master := rfl

@[simp] theorem modCounters_memory (k : Fin 4) (f : LinkCounters → LinkCounters) (s : State) : (modCounters k f s).memory = s.memory := rfl

@[simp] theorem modCounters_custody (k : Fin 4) (f : LinkCounters → LinkCounters) (s : State) : (modCounters k f s).custody = s.custody := rfl

@[simp] theorem modCounters_sched (k : Fin 4) (f : LinkCounters → LinkCounters) (s : State) : (modCounters k f s).sched = s.sched := rfl

@[simp] theorem modCounters_ctrl (k : Fin 4) (f : LinkCounters → LinkCounters) (s : State) : (modCounters k f s).ctrl = s.ctrl := rfl

@[simp] theorem modCounters_probes (k : Fin 4) (f : LinkCounters → LinkCounters) (s : State) : (modCounters k f s).probes = s.probes := rfl

@[simp] theorem modCounters_fifo (k : Fin 4) (f : LinkCounters → LinkCounters) (s : State) : (modCounters k f s).fifo = s.fifo := rfl

@[simp] theorem modCounters_cmp (k : Fin 4) (f : LinkCounters → LinkCounters) (s : State) : (modCounters k f s).cmp = s.cmp := rfl

@[simp] theorem modCounters_journal (k : Fin 4) (f : LinkCounters → LinkCounters) (s : State) : (modCounters k f s).journal = s.journal := rfl

@[simp] theorem modCounters_reader (k : Fin 4) (f : LinkCounters → LinkCounters) (s : State) : (modCounters k f s).reader = s.reader := rfl

@[simp] theorem modCounters_freeCount (k : Fin 4) (f : LinkCounters → LinkCounters) (s : State) : (modCounters k f s).freeCount = s.freeCount := rfl

@[simp] theorem modCounters_eventNo (k : Fin 4) (f : LinkCounters → LinkCounters) (s : State) : (modCounters k f s).eventNo = s.eventNo := rfl

/-! ### modWindow -/

@[simp] theorem modWindow_pending (w : Fin 64) (f : Window → Window) (s : State) : (modWindow w f s).pending = s.pending := rfl

@[simp] theorem modWindow_held (w : Fin 64) (f : Window → Window) (s : State) : (modWindow w f s).held = s.held := rfl

@[simp] theorem modWindow_clock (w : Fin 64) (f : Window → Window) (s : State) : (modWindow w f s).clock = s.clock := rfl

@[simp] theorem modWindow_params (w : Fin 64) (f : Window → Window) (s : State) : (modWindow w f s).params = s.params := rfl

@[simp] theorem modWindow_loader (w : Fin 64) (f : Window → Window) (s : State) : (modWindow w f s).loader = s.loader := rfl

@[simp] theorem modWindow_master (w : Fin 64) (f : Window → Window) (s : State) : (modWindow w f s).master = s.master := rfl

@[simp] theorem modWindow_memory (w : Fin 64) (f : Window → Window) (s : State) : (modWindow w f s).memory = s.memory := rfl

@[simp] theorem modWindow_custody (w : Fin 64) (f : Window → Window) (s : State) : (modWindow w f s).custody = s.custody := rfl

@[simp] theorem modWindow_ctrl (w : Fin 64) (f : Window → Window) (s : State) : (modWindow w f s).ctrl = s.ctrl := rfl

@[simp] theorem modWindow_probes (w : Fin 64) (f : Window → Window) (s : State) : (modWindow w f s).probes = s.probes := rfl

@[simp] theorem modWindow_links (w : Fin 64) (f : Window → Window) (s : State) : (modWindow w f s).links = s.links := rfl

@[simp] theorem modWindow_fifo (w : Fin 64) (f : Window → Window) (s : State) : (modWindow w f s).fifo = s.fifo := rfl

@[simp] theorem modWindow_cmp (w : Fin 64) (f : Window → Window) (s : State) : (modWindow w f s).cmp = s.cmp := rfl

@[simp] theorem modWindow_journal (w : Fin 64) (f : Window → Window) (s : State) : (modWindow w f s).journal = s.journal := rfl

@[simp] theorem modWindow_reader (w : Fin 64) (f : Window → Window) (s : State) : (modWindow w f s).reader = s.reader := rfl

@[simp] theorem modWindow_freeCount (w : Fin 64) (f : Window → Window) (s : State) : (modWindow w f s).freeCount = s.freeCount := rfl

@[simp] theorem modWindow_eventNo (w : Fin 64) (f : Window → Window) (s : State) : (modWindow w f s).eventNo = s.eventNo := rfl

/-! ### setMapEntry -/

@[simp] theorem setMapEntry_pending (c : Nat) (e : MapEntry) (s : State) : (setMapEntry c e s).pending = s.pending := rfl

@[simp] theorem setMapEntry_held (c : Nat) (e : MapEntry) (s : State) : (setMapEntry c e s).held = s.held := rfl

@[simp] theorem setMapEntry_clock (c : Nat) (e : MapEntry) (s : State) : (setMapEntry c e s).clock = s.clock := rfl

@[simp] theorem setMapEntry_params (c : Nat) (e : MapEntry) (s : State) : (setMapEntry c e s).params = s.params := rfl

@[simp] theorem setMapEntry_loader (c : Nat) (e : MapEntry) (s : State) : (setMapEntry c e s).loader = s.loader := rfl

@[simp] theorem setMapEntry_master (c : Nat) (e : MapEntry) (s : State) : (setMapEntry c e s).master = s.master := rfl

@[simp] theorem setMapEntry_memory (c : Nat) (e : MapEntry) (s : State) : (setMapEntry c e s).memory = s.memory := rfl

@[simp] theorem setMapEntry_sched (c : Nat) (e : MapEntry) (s : State) : (setMapEntry c e s).sched = s.sched := rfl

@[simp] theorem setMapEntry_ctrl (c : Nat) (e : MapEntry) (s : State) : (setMapEntry c e s).ctrl = s.ctrl := rfl

@[simp] theorem setMapEntry_probes (c : Nat) (e : MapEntry) (s : State) : (setMapEntry c e s).probes = s.probes := rfl

@[simp] theorem setMapEntry_links (c : Nat) (e : MapEntry) (s : State) : (setMapEntry c e s).links = s.links := rfl

@[simp] theorem setMapEntry_fifo (c : Nat) (e : MapEntry) (s : State) : (setMapEntry c e s).fifo = s.fifo := rfl

@[simp] theorem setMapEntry_cmp (c : Nat) (e : MapEntry) (s : State) : (setMapEntry c e s).cmp = s.cmp := rfl

@[simp] theorem setMapEntry_journal (c : Nat) (e : MapEntry) (s : State) : (setMapEntry c e s).journal = s.journal := rfl

@[simp] theorem setMapEntry_reader (c : Nat) (e : MapEntry) (s : State) : (setMapEntry c e s).reader = s.reader := rfl

@[simp] theorem setMapEntry_freeCount (c : Nat) (e : MapEntry) (s : State) : (setMapEntry c e s).freeCount = s.freeCount := rfl

@[simp] theorem setMapEntry_eventNo (c : Nat) (e : MapEntry) (s : State) : (setMapEntry c e s).eventNo = s.eventNo := rfl

/-! ### setAction -/

@[simp] theorem setAction_pending (a : Option Action) (s : State) : (setAction a s).pending = s.pending := rfl

@[simp] theorem setAction_held (a : Option Action) (s : State) : (setAction a s).held = s.held := rfl

@[simp] theorem setAction_clock (a : Option Action) (s : State) : (setAction a s).clock = s.clock := rfl

@[simp] theorem setAction_params (a : Option Action) (s : State) : (setAction a s).params = s.params := rfl

@[simp] theorem setAction_loader (a : Option Action) (s : State) : (setAction a s).loader = s.loader := rfl

@[simp] theorem setAction_master (a : Option Action) (s : State) : (setAction a s).master = s.master := rfl

@[simp] theorem setAction_memory (a : Option Action) (s : State) : (setAction a s).memory = s.memory := rfl

@[simp] theorem setAction_sched (a : Option Action) (s : State) : (setAction a s).sched = s.sched := rfl

@[simp] theorem setAction_ctrl (a : Option Action) (s : State) : (setAction a s).ctrl = s.ctrl := rfl

@[simp] theorem setAction_probes (a : Option Action) (s : State) : (setAction a s).probes = s.probes := rfl

@[simp] theorem setAction_links (a : Option Action) (s : State) : (setAction a s).links = s.links := rfl

@[simp] theorem setAction_fifo (a : Option Action) (s : State) : (setAction a s).fifo = s.fifo := rfl

@[simp] theorem setAction_cmp (a : Option Action) (s : State) : (setAction a s).cmp = s.cmp := rfl

@[simp] theorem setAction_journal (a : Option Action) (s : State) : (setAction a s).journal = s.journal := rfl

@[simp] theorem setAction_reader (a : Option Action) (s : State) : (setAction a s).reader = s.reader := rfl

@[simp] theorem setAction_freeCount (a : Option Action) (s : State) : (setAction a s).freeCount = s.freeCount := rfl

@[simp] theorem setAction_eventNo (a : Option Action) (s : State) : (setAction a s).eventNo = s.eventNo := rfl

/-! ### askCustody -/

@[simp] theorem askCustody_pending (r : CustodyReq) (s : State) : (askCustody r s).pending = s.pending := rfl

@[simp] theorem askCustody_held (r : CustodyReq) (s : State) : (askCustody r s).held = s.held := rfl

@[simp] theorem askCustody_clock (r : CustodyReq) (s : State) : (askCustody r s).clock = s.clock := rfl

@[simp] theorem askCustody_params (r : CustodyReq) (s : State) : (askCustody r s).params = s.params := rfl

@[simp] theorem askCustody_loader (r : CustodyReq) (s : State) : (askCustody r s).loader = s.loader := rfl

@[simp] theorem askCustody_master (r : CustodyReq) (s : State) : (askCustody r s).master = s.master := rfl

@[simp] theorem askCustody_memory (r : CustodyReq) (s : State) : (askCustody r s).memory = s.memory := rfl

@[simp] theorem askCustody_sched (r : CustodyReq) (s : State) : (askCustody r s).sched = s.sched := rfl

@[simp] theorem askCustody_ctrl (r : CustodyReq) (s : State) : (askCustody r s).ctrl = s.ctrl := rfl

@[simp] theorem askCustody_probes (r : CustodyReq) (s : State) : (askCustody r s).probes = s.probes := rfl

@[simp] theorem askCustody_links (r : CustodyReq) (s : State) : (askCustody r s).links = s.links := rfl

@[simp] theorem askCustody_fifo (r : CustodyReq) (s : State) : (askCustody r s).fifo = s.fifo := rfl

@[simp] theorem askCustody_cmp (r : CustodyReq) (s : State) : (askCustody r s).cmp = s.cmp := rfl

@[simp] theorem askCustody_journal (r : CustodyReq) (s : State) : (askCustody r s).journal = s.journal := rfl

@[simp] theorem askCustody_reader (r : CustodyReq) (s : State) : (askCustody r s).reader = s.reader := rfl

@[simp] theorem askCustody_freeCount (r : CustodyReq) (s : State) : (askCustody r s).freeCount = s.freeCount := rfl

@[simp] theorem askCustody_eventNo (r : CustodyReq) (s : State) : (askCustody r s).eventNo = s.eventNo := rfl

/-! ### modReader -/

@[simp] theorem modReader_pending (f : Reader → Reader) (s : State) : (modReader f s).pending = s.pending := rfl

@[simp] theorem modReader_held (f : Reader → Reader) (s : State) : (modReader f s).held = s.held := rfl

@[simp] theorem modReader_clock (f : Reader → Reader) (s : State) : (modReader f s).clock = s.clock := rfl

@[simp] theorem modReader_params (f : Reader → Reader) (s : State) : (modReader f s).params = s.params := rfl

@[simp] theorem modReader_loader (f : Reader → Reader) (s : State) : (modReader f s).loader = s.loader := rfl

@[simp] theorem modReader_master (f : Reader → Reader) (s : State) : (modReader f s).master = s.master := rfl

@[simp] theorem modReader_memory (f : Reader → Reader) (s : State) : (modReader f s).memory = s.memory := rfl

@[simp] theorem modReader_custody (f : Reader → Reader) (s : State) : (modReader f s).custody = s.custody := rfl

@[simp] theorem modReader_sched (f : Reader → Reader) (s : State) : (modReader f s).sched = s.sched := rfl

@[simp] theorem modReader_ctrl (f : Reader → Reader) (s : State) : (modReader f s).ctrl = s.ctrl := rfl

@[simp] theorem modReader_probes (f : Reader → Reader) (s : State) : (modReader f s).probes = s.probes := rfl

@[simp] theorem modReader_links (f : Reader → Reader) (s : State) : (modReader f s).links = s.links := rfl

@[simp] theorem modReader_fifo (f : Reader → Reader) (s : State) : (modReader f s).fifo = s.fifo := rfl

@[simp] theorem modReader_cmp (f : Reader → Reader) (s : State) : (modReader f s).cmp = s.cmp := rfl

@[simp] theorem modReader_journal (f : Reader → Reader) (s : State) : (modReader f s).journal = s.journal := rfl

@[simp] theorem modReader_reader (f : Reader → Reader) (s : State) : (modReader f s).reader = f s.reader := rfl

@[simp] theorem modReader_freeCount (f : Reader → Reader) (s : State) : (modReader f s).freeCount = s.freeCount := rfl

@[simp] theorem modReader_eventNo (f : Reader → Reader) (s : State) : (modReader f s).eventNo = s.eventNo := rfl

/-! ### modCmp -/

@[simp] theorem modCmp_pending (f : Comparator → Comparator) (s : State) : (modCmp f s).pending = s.pending := rfl

@[simp] theorem modCmp_held (f : Comparator → Comparator) (s : State) : (modCmp f s).held = s.held := rfl

@[simp] theorem modCmp_clock (f : Comparator → Comparator) (s : State) : (modCmp f s).clock = s.clock := rfl

@[simp] theorem modCmp_params (f : Comparator → Comparator) (s : State) : (modCmp f s).params = s.params := rfl

@[simp] theorem modCmp_loader (f : Comparator → Comparator) (s : State) : (modCmp f s).loader = s.loader := rfl

@[simp] theorem modCmp_master (f : Comparator → Comparator) (s : State) : (modCmp f s).master = s.master := rfl

@[simp] theorem modCmp_memory (f : Comparator → Comparator) (s : State) : (modCmp f s).memory = s.memory := rfl

@[simp] theorem modCmp_custody (f : Comparator → Comparator) (s : State) : (modCmp f s).custody = s.custody := rfl

@[simp] theorem modCmp_sched (f : Comparator → Comparator) (s : State) : (modCmp f s).sched = s.sched := rfl

@[simp] theorem modCmp_ctrl (f : Comparator → Comparator) (s : State) : (modCmp f s).ctrl = s.ctrl := rfl

@[simp] theorem modCmp_probes (f : Comparator → Comparator) (s : State) : (modCmp f s).probes = s.probes := rfl

@[simp] theorem modCmp_links (f : Comparator → Comparator) (s : State) : (modCmp f s).links = s.links := rfl

@[simp] theorem modCmp_fifo (f : Comparator → Comparator) (s : State) : (modCmp f s).fifo = s.fifo := rfl

@[simp] theorem modCmp_cmp (f : Comparator → Comparator) (s : State) : (modCmp f s).cmp = f s.cmp := rfl

@[simp] theorem modCmp_journal (f : Comparator → Comparator) (s : State) : (modCmp f s).journal = s.journal := rfl

@[simp] theorem modCmp_reader (f : Comparator → Comparator) (s : State) : (modCmp f s).reader = s.reader := rfl

@[simp] theorem modCmp_freeCount (f : Comparator → Comparator) (s : State) : (modCmp f s).freeCount = s.freeCount := rfl

@[simp] theorem modCmp_eventNo (f : Comparator → Comparator) (s : State) : (modCmp f s).eventNo = s.eventNo := rfl

/-! ### modJournal -/

@[simp] theorem modJournal_pending (f : Journal → Journal) (s : State) : (modJournal f s).pending = s.pending := rfl

@[simp] theorem modJournal_held (f : Journal → Journal) (s : State) : (modJournal f s).held = s.held := rfl

@[simp] theorem modJournal_clock (f : Journal → Journal) (s : State) : (modJournal f s).clock = s.clock := rfl

@[simp] theorem modJournal_params (f : Journal → Journal) (s : State) : (modJournal f s).params = s.params := rfl

@[simp] theorem modJournal_loader (f : Journal → Journal) (s : State) : (modJournal f s).loader = s.loader := rfl

@[simp] theorem modJournal_master (f : Journal → Journal) (s : State) : (modJournal f s).master = s.master := rfl

@[simp] theorem modJournal_memory (f : Journal → Journal) (s : State) : (modJournal f s).memory = s.memory := rfl

@[simp] theorem modJournal_custody (f : Journal → Journal) (s : State) : (modJournal f s).custody = s.custody := rfl

@[simp] theorem modJournal_sched (f : Journal → Journal) (s : State) : (modJournal f s).sched = s.sched := rfl

@[simp] theorem modJournal_ctrl (f : Journal → Journal) (s : State) : (modJournal f s).ctrl = s.ctrl := rfl

@[simp] theorem modJournal_probes (f : Journal → Journal) (s : State) : (modJournal f s).probes = s.probes := rfl

@[simp] theorem modJournal_links (f : Journal → Journal) (s : State) : (modJournal f s).links = s.links := rfl

@[simp] theorem modJournal_fifo (f : Journal → Journal) (s : State) : (modJournal f s).fifo = s.fifo := rfl

@[simp] theorem modJournal_cmp (f : Journal → Journal) (s : State) : (modJournal f s).cmp = s.cmp := rfl

@[simp] theorem modJournal_journal (f : Journal → Journal) (s : State) : (modJournal f s).journal = f s.journal := rfl

@[simp] theorem modJournal_reader (f : Journal → Journal) (s : State) : (modJournal f s).reader = s.reader := rfl

@[simp] theorem modJournal_freeCount (f : Journal → Journal) (s : State) : (modJournal f s).freeCount = s.freeCount := rfl

@[simp] theorem modJournal_eventNo (f : Journal → Journal) (s : State) : (modJournal f s).eventNo = s.eventNo := rfl

/-! ### modLoader -/

@[simp] theorem modLoader_pending (f : Loader → Loader) (s : State) : (modLoader f s).pending = s.pending := rfl

@[simp] theorem modLoader_held (f : Loader → Loader) (s : State) : (modLoader f s).held = s.held := rfl

@[simp] theorem modLoader_clock (f : Loader → Loader) (s : State) : (modLoader f s).clock = s.clock := rfl

@[simp] theorem modLoader_params (f : Loader → Loader) (s : State) : (modLoader f s).params = s.params := rfl

@[simp] theorem modLoader_loader (f : Loader → Loader) (s : State) : (modLoader f s).loader = f s.loader := rfl

@[simp] theorem modLoader_master (f : Loader → Loader) (s : State) : (modLoader f s).master = s.master := rfl

@[simp] theorem modLoader_memory (f : Loader → Loader) (s : State) : (modLoader f s).memory = s.memory := rfl

@[simp] theorem modLoader_custody (f : Loader → Loader) (s : State) : (modLoader f s).custody = s.custody := rfl

@[simp] theorem modLoader_sched (f : Loader → Loader) (s : State) : (modLoader f s).sched = s.sched := rfl

@[simp] theorem modLoader_ctrl (f : Loader → Loader) (s : State) : (modLoader f s).ctrl = s.ctrl := rfl

@[simp] theorem modLoader_probes (f : Loader → Loader) (s : State) : (modLoader f s).probes = s.probes := rfl

@[simp] theorem modLoader_links (f : Loader → Loader) (s : State) : (modLoader f s).links = s.links := rfl

@[simp] theorem modLoader_fifo (f : Loader → Loader) (s : State) : (modLoader f s).fifo = s.fifo := rfl

@[simp] theorem modLoader_cmp (f : Loader → Loader) (s : State) : (modLoader f s).cmp = s.cmp := rfl

@[simp] theorem modLoader_journal (f : Loader → Loader) (s : State) : (modLoader f s).journal = s.journal := rfl

@[simp] theorem modLoader_reader (f : Loader → Loader) (s : State) : (modLoader f s).reader = s.reader := rfl

@[simp] theorem modLoader_freeCount (f : Loader → Loader) (s : State) : (modLoader f s).freeCount = s.freeCount := rfl

@[simp] theorem modLoader_eventNo (f : Loader → Loader) (s : State) : (modLoader f s).eventNo = s.eventNo := rfl

/-! ### setFence -/

@[simp] theorem setFence_pending (f : List (Nat × Nat)) (s : State) : (setFence f s).pending = s.pending := rfl

@[simp] theorem setFence_held (f : List (Nat × Nat)) (s : State) : (setFence f s).held = s.held := rfl

@[simp] theorem setFence_clock (f : List (Nat × Nat)) (s : State) : (setFence f s).clock = s.clock := rfl

@[simp] theorem setFence_params (f : List (Nat × Nat)) (s : State) : (setFence f s).params = s.params := rfl

@[simp] theorem setFence_loader (f : List (Nat × Nat)) (s : State) : (setFence f s).loader = s.loader := rfl

@[simp] theorem setFence_master (f : List (Nat × Nat)) (s : State) : (setFence f s).master = s.master := rfl

@[simp] theorem setFence_memory (f : List (Nat × Nat)) (s : State) : (setFence f s).memory = s.memory := rfl

@[simp] theorem setFence_custody (f : List (Nat × Nat)) (s : State) : (setFence f s).custody = s.custody := rfl

@[simp] theorem setFence_ctrl (f : List (Nat × Nat)) (s : State) : (setFence f s).ctrl = s.ctrl := rfl

@[simp] theorem setFence_probes (f : List (Nat × Nat)) (s : State) : (setFence f s).probes = s.probes := rfl

@[simp] theorem setFence_links (f : List (Nat × Nat)) (s : State) : (setFence f s).links = s.links := rfl

@[simp] theorem setFence_fifo (f : List (Nat × Nat)) (s : State) : (setFence f s).fifo = s.fifo := rfl

@[simp] theorem setFence_cmp (f : List (Nat × Nat)) (s : State) : (setFence f s).cmp = s.cmp := rfl

@[simp] theorem setFence_journal (f : List (Nat × Nat)) (s : State) : (setFence f s).journal = s.journal := rfl

@[simp] theorem setFence_reader (f : List (Nat × Nat)) (s : State) : (setFence f s).reader = s.reader := rfl

@[simp] theorem setFence_freeCount (f : List (Nat × Nat)) (s : State) : (setFence f s).freeCount = s.freeCount := rfl

@[simp] theorem setFence_eventNo (f : List (Nat × Nat)) (s : State) : (setFence f s).eventNo = s.eventNo := rfl

/-! ### setQueue -/

@[simp] theorem setQueue_pending (r : Requester) (q : List Access) (s : State) : (setQueue r q s).pending = s.pending := rfl

@[simp] theorem setQueue_held (r : Requester) (q : List Access) (s : State) : (setQueue r q s).held = s.held := rfl

@[simp] theorem setQueue_clock (r : Requester) (q : List Access) (s : State) : (setQueue r q s).clock = s.clock := rfl

@[simp] theorem setQueue_params (r : Requester) (q : List Access) (s : State) : (setQueue r q s).params = s.params := rfl

@[simp] theorem setQueue_loader (r : Requester) (q : List Access) (s : State) : (setQueue r q s).loader = s.loader := rfl

@[simp] theorem setQueue_memory (r : Requester) (q : List Access) (s : State) : (setQueue r q s).memory = s.memory := rfl

@[simp] theorem setQueue_custody (r : Requester) (q : List Access) (s : State) : (setQueue r q s).custody = s.custody := rfl

@[simp] theorem setQueue_sched (r : Requester) (q : List Access) (s : State) : (setQueue r q s).sched = s.sched := rfl

@[simp] theorem setQueue_ctrl (r : Requester) (q : List Access) (s : State) : (setQueue r q s).ctrl = s.ctrl := rfl

@[simp] theorem setQueue_probes (r : Requester) (q : List Access) (s : State) : (setQueue r q s).probes = s.probes := rfl

@[simp] theorem setQueue_links (r : Requester) (q : List Access) (s : State) : (setQueue r q s).links = s.links := rfl

@[simp] theorem setQueue_fifo (r : Requester) (q : List Access) (s : State) : (setQueue r q s).fifo = s.fifo := rfl

@[simp] theorem setQueue_cmp (r : Requester) (q : List Access) (s : State) : (setQueue r q s).cmp = s.cmp := rfl

@[simp] theorem setQueue_journal (r : Requester) (q : List Access) (s : State) : (setQueue r q s).journal = s.journal := rfl

@[simp] theorem setQueue_reader (r : Requester) (q : List Access) (s : State) : (setQueue r q s).reader = s.reader := rfl

@[simp] theorem setQueue_freeCount (r : Requester) (q : List Access) (s : State) : (setQueue r q s).freeCount = s.freeCount := rfl

@[simp] theorem setQueue_eventNo (r : Requester) (q : List Access) (s : State) : (setQueue r q s).eventNo = s.eventNo := rfl

/-! ### hand -/

@[simp] theorem hand_pending (r : Requester) (a : Access) (s : State) : (hand r a s).pending = s.pending := rfl

@[simp] theorem hand_held (r : Requester) (a : Access) (s : State) : (hand r a s).held = s.held := rfl

@[simp] theorem hand_clock (r : Requester) (a : Access) (s : State) : (hand r a s).clock = s.clock := rfl

@[simp] theorem hand_params (r : Requester) (a : Access) (s : State) : (hand r a s).params = s.params := rfl

@[simp] theorem hand_loader (r : Requester) (a : Access) (s : State) : (hand r a s).loader = s.loader := rfl

@[simp] theorem hand_memory (r : Requester) (a : Access) (s : State) : (hand r a s).memory = s.memory := rfl

@[simp] theorem hand_custody (r : Requester) (a : Access) (s : State) : (hand r a s).custody = s.custody := rfl

@[simp] theorem hand_sched (r : Requester) (a : Access) (s : State) : (hand r a s).sched = s.sched := rfl

@[simp] theorem hand_ctrl (r : Requester) (a : Access) (s : State) : (hand r a s).ctrl = s.ctrl := rfl

@[simp] theorem hand_probes (r : Requester) (a : Access) (s : State) : (hand r a s).probes = s.probes := rfl

@[simp] theorem hand_links (r : Requester) (a : Access) (s : State) : (hand r a s).links = s.links := rfl

@[simp] theorem hand_fifo (r : Requester) (a : Access) (s : State) : (hand r a s).fifo = s.fifo := rfl

@[simp] theorem hand_cmp (r : Requester) (a : Access) (s : State) : (hand r a s).cmp = s.cmp := rfl

@[simp] theorem hand_journal (r : Requester) (a : Access) (s : State) : (hand r a s).journal = s.journal := rfl

@[simp] theorem hand_reader (r : Requester) (a : Access) (s : State) : (hand r a s).reader = s.reader := rfl

@[simp] theorem hand_freeCount (r : Requester) (a : Access) (s : State) : (hand r a s).freeCount = s.freeCount := rfl

@[simp] theorem hand_eventNo (r : Requester) (a : Access) (s : State) : (hand r a s).eventNo = s.eventNo := rfl

/-! ### handRead -/

@[simp] theorem handRead_pending (r : Requester) (addr : Word) (tag : Tag) (s : State) : (handRead r addr tag s).pending = s.pending := rfl

@[simp] theorem handRead_held (r : Requester) (addr : Word) (tag : Tag) (s : State) : (handRead r addr tag s).held = s.held := rfl

@[simp] theorem handRead_clock (r : Requester) (addr : Word) (tag : Tag) (s : State) : (handRead r addr tag s).clock = s.clock := rfl

@[simp] theorem handRead_params (r : Requester) (addr : Word) (tag : Tag) (s : State) : (handRead r addr tag s).params = s.params := rfl

@[simp] theorem handRead_loader (r : Requester) (addr : Word) (tag : Tag) (s : State) : (handRead r addr tag s).loader = s.loader := rfl

@[simp] theorem handRead_memory (r : Requester) (addr : Word) (tag : Tag) (s : State) : (handRead r addr tag s).memory = s.memory := rfl

@[simp] theorem handRead_custody (r : Requester) (addr : Word) (tag : Tag) (s : State) : (handRead r addr tag s).custody = s.custody := rfl

@[simp] theorem handRead_sched (r : Requester) (addr : Word) (tag : Tag) (s : State) : (handRead r addr tag s).sched = s.sched := rfl

@[simp] theorem handRead_ctrl (r : Requester) (addr : Word) (tag : Tag) (s : State) : (handRead r addr tag s).ctrl = s.ctrl := rfl

@[simp] theorem handRead_probes (r : Requester) (addr : Word) (tag : Tag) (s : State) : (handRead r addr tag s).probes = s.probes := rfl

@[simp] theorem handRead_links (r : Requester) (addr : Word) (tag : Tag) (s : State) : (handRead r addr tag s).links = s.links := rfl

@[simp] theorem handRead_fifo (r : Requester) (addr : Word) (tag : Tag) (s : State) : (handRead r addr tag s).fifo = s.fifo := rfl

@[simp] theorem handRead_cmp (r : Requester) (addr : Word) (tag : Tag) (s : State) : (handRead r addr tag s).cmp = s.cmp := rfl

@[simp] theorem handRead_journal (r : Requester) (addr : Word) (tag : Tag) (s : State) : (handRead r addr tag s).journal = s.journal := rfl

@[simp] theorem handRead_reader (r : Requester) (addr : Word) (tag : Tag) (s : State) : (handRead r addr tag s).reader = s.reader := rfl

@[simp] theorem handRead_freeCount (r : Requester) (addr : Word) (tag : Tag) (s : State) : (handRead r addr tag s).freeCount = s.freeCount := rfl

@[simp] theorem handRead_eventNo (r : Requester) (addr : Word) (tag : Tag) (s : State) : (handRead r addr tag s).eventNo = s.eventNo := rfl

/-! ### handWrite -/

@[simp] theorem handWrite_pending (r : Requester) (addr data : Word) (tag : Tag) (s : State) : (handWrite r addr data tag s).pending = s.pending := rfl

@[simp] theorem handWrite_held (r : Requester) (addr data : Word) (tag : Tag) (s : State) : (handWrite r addr data tag s).held = s.held := rfl

@[simp] theorem handWrite_clock (r : Requester) (addr data : Word) (tag : Tag) (s : State) : (handWrite r addr data tag s).clock = s.clock := rfl

@[simp] theorem handWrite_params (r : Requester) (addr data : Word) (tag : Tag) (s : State) : (handWrite r addr data tag s).params = s.params := rfl

@[simp] theorem handWrite_loader (r : Requester) (addr data : Word) (tag : Tag) (s : State) : (handWrite r addr data tag s).loader = s.loader := rfl

@[simp] theorem handWrite_memory (r : Requester) (addr data : Word) (tag : Tag) (s : State) : (handWrite r addr data tag s).memory = s.memory := rfl

@[simp] theorem handWrite_custody (r : Requester) (addr data : Word) (tag : Tag) (s : State) : (handWrite r addr data tag s).custody = s.custody := rfl

@[simp] theorem handWrite_sched (r : Requester) (addr data : Word) (tag : Tag) (s : State) : (handWrite r addr data tag s).sched = s.sched := rfl

@[simp] theorem handWrite_ctrl (r : Requester) (addr data : Word) (tag : Tag) (s : State) : (handWrite r addr data tag s).ctrl = s.ctrl := rfl

@[simp] theorem handWrite_probes (r : Requester) (addr data : Word) (tag : Tag) (s : State) : (handWrite r addr data tag s).probes = s.probes := rfl

@[simp] theorem handWrite_links (r : Requester) (addr data : Word) (tag : Tag) (s : State) : (handWrite r addr data tag s).links = s.links := rfl

@[simp] theorem handWrite_fifo (r : Requester) (addr data : Word) (tag : Tag) (s : State) : (handWrite r addr data tag s).fifo = s.fifo := rfl

@[simp] theorem handWrite_cmp (r : Requester) (addr data : Word) (tag : Tag) (s : State) : (handWrite r addr data tag s).cmp = s.cmp := rfl

@[simp] theorem handWrite_journal (r : Requester) (addr data : Word) (tag : Tag) (s : State) : (handWrite r addr data tag s).journal = s.journal := rfl

@[simp] theorem handWrite_reader (r : Requester) (addr data : Word) (tag : Tag) (s : State) : (handWrite r addr data tag s).reader = s.reader := rfl

@[simp] theorem handWrite_freeCount (r : Requester) (addr data : Word) (tag : Tag) (s : State) : (handWrite r addr data tag s).freeCount = s.freeCount := rfl

@[simp] theorem handWrite_eventNo (r : Requester) (addr data : Word) (tag : Tag) (s : State) : (handWrite r addr data tag s).eventNo = s.eventNo := rfl

/-! ### dropQueues -/

@[simp] theorem dropQueues_pending  (s : State) : (dropQueues s).pending = s.pending := rfl

@[simp] theorem dropQueues_held  (s : State) : (dropQueues s).held = s.held := rfl

@[simp] theorem dropQueues_clock  (s : State) : (dropQueues s).clock = s.clock := rfl

@[simp] theorem dropQueues_params  (s : State) : (dropQueues s).params = s.params := rfl

@[simp] theorem dropQueues_loader  (s : State) : (dropQueues s).loader = s.loader := rfl

@[simp] theorem dropQueues_memory  (s : State) : (dropQueues s).memory = s.memory := rfl

@[simp] theorem dropQueues_custody  (s : State) : (dropQueues s).custody = s.custody := rfl

@[simp] theorem dropQueues_sched  (s : State) : (dropQueues s).sched = s.sched := rfl

@[simp] theorem dropQueues_ctrl  (s : State) : (dropQueues s).ctrl = s.ctrl := rfl

@[simp] theorem dropQueues_probes  (s : State) : (dropQueues s).probes = s.probes := rfl

@[simp] theorem dropQueues_links  (s : State) : (dropQueues s).links = s.links := rfl

@[simp] theorem dropQueues_fifo  (s : State) : (dropQueues s).fifo = s.fifo := rfl

@[simp] theorem dropQueues_cmp  (s : State) : (dropQueues s).cmp = s.cmp := rfl

@[simp] theorem dropQueues_journal  (s : State) : (dropQueues s).journal = s.journal := rfl

@[simp] theorem dropQueues_reader  (s : State) : (dropQueues s).reader = s.reader := rfl

@[simp] theorem dropQueues_freeCount  (s : State) : (dropQueues s).freeCount = s.freeCount := rfl

@[simp] theorem dropQueues_eventNo  (s : State) : (dropQueues s).eventNo = s.eventNo := rfl

/-! ### The element an update is about -/

@[simp] theorem modEntry_entry (i j : Fin 64) (f : Entry → Entry) (s : State) :
    (modEntry i f s).entry j = if j = i then f (s.entry i) else s.entry j := vput_get _ _ _ _

@[simp] theorem modSched_launchSched (i j : Fin 4) (f : LaunchSched → LaunchSched) (s : State) :
    (modSched i f s).launchSched j = if j = i then f (s.launchSched i) else s.launchSched j := vput_get _ _ _ _

@[simp] theorem modEntry_launchSched (i : Fin 64) (j : Fin 4) (f : Entry → Entry) (s : State) :
    (modEntry i f s).launchSched j = s.launchSched j := rfl

@[simp] theorem modSched_entry (i : Fin 4) (j : Fin 64) (f : LaunchSched → LaunchSched) (s : State) :
    (modSched i f s).entry j = s.entry j := rfl

@[simp] theorem modCampaign_campaign (i j : Fin 8) (f : Campaign → Campaign) (s : State) :
    (modCampaign i f s).campaign j = if j = i then f (s.campaign i) else s.campaign j := vput_get _ _ _ _

@[simp] theorem modLink_link (i j : Fin 4) (f : Link → Link) (s : State) :
    (modLink i f s).link j = if j = i then f (s.link i) else s.link j := vput_get _ _ _ _

@[simp] theorem modWindow_window (i j : Fin 64) (f : Window → Window) (s : State) :
    (modWindow i f s).window j = if j = i then f (s.window i) else s.window j := vput_get _ _ _ _

@[simp] theorem setQueue_port (r : Requester) (q : List Access) (s : State) : (setQueue r q s).master.port = s.master.port := rfl

@[simp] theorem hand_port (r : Requester) (a : Access) (s : State) : (hand r a s).master.port = s.master.port := rfl

@[simp] theorem setRun_run (r : RunState) (s : State) : (setRun r s).run = r := rfl

@[simp] theorem setEvent_run (e : Event) (s : State) : (setEvent e s).run = s.run := rfl

/-- An access joins the tail of its requester's queue. -/
@[simp] theorem hand_queue (r : Requester) (a : Access) (s : State) : (hand r a s).queue r = s.queue r ++ [a] := vput_get_same _ _ _

end Sys2Proof.Machine
end

