-- ==== Sys2Proof/Laws/Queues.lean ====
section
/-! SUPPORT. The bounds on the Echo Staging FIFO and the transmit queues (05 R99 R104) under every operation that touches them. -/

namespace Sys2Proof.Machine

/-- A link changed so that its transmit queue keeps the bound. -/
theorem modLink_bounded (k : Fin 4) (f : Link → Link) (s : State) (h : s.surround.bounded)
    (hf : (f (s.link k)).txQueue.length ≤ 32) : (modLink k f s).surround.bounded := by
  refine ⟨h.1, fun j => ?_⟩
  show ((modLink k f s).link j).txQueue.length ≤ 32
  rw [modLink_link]
  split
  · exact hf
  · exact h.2 j

@[simp] theorem modCounters_bounded (k : Fin 4) (f : LinkCounters → LinkCounters) (s : State) (h : s.surround.bounded) :
    (modCounters k f s).surround.bounded :=
  modLink_bounded _ _ _ h (h.2 k)

/-- A committed frame joins a transmit queue of at most 31 frames only. -/
@[simp] theorem commitFrame_bounded (k : Fin 4) (frame : List Byte) (s : State) (h : s.surround.bounded) :
    (commitFrame k frame s).surround.bounded := by
  refine modLink_bounded _ _ _ h ?_
  have := h.2 k
  show (if (s.link k).txQueue.length < 32 then (s.link k).txQueue ++ [frame] else (s.link k).txQueue).length ≤ 32
  split
  · simp; omega
  · exact this

/-- The bounds speak of the links and the FIFO only. -/
@[simp] theorem modJournal_bounded (f : Journal → Journal) (s : State) :
    (modJournal f s).surround.bounded ↔ s.surround.bounded := Iff.rfl

@[simp] theorem entryWritten_bounded (s : State) (h : s.surround.bounded) : (entryWritten s).surround.bounded := by
  simp only [entryWritten]
  split <;> simp [h]
  exact ⟨h.1, h.2⟩

@[simp] theorem markWrite_bounded (value : Word) (s : State) (h : s.surround.bounded) :
    (markWrite value s).surround.bounded := by
  simp only [markWrite]
  split <;> simp <;> exact ⟨h.1, h.2⟩

/-- The FIFO replaced by one that is no longer. -/
theorem fifo_bounded (s : State) (l : List Echo) (h : s.surround.bounded) (hl : l.length ≤ 16) :
    ({ s with fifo := l } : State).surround.bounded := ⟨hl, h.2⟩

@[simp] theorem launch_bounded (k : Fin 4) (p : PickResult) (i : Fin 64) (s : State) (h : s.surround.bounded) :
    (launch k p i s).surround.bounded := by
  simp only [launch, modEntry_surround]
  exact modCounters_bounded _ _ _ (commitFrame_bounded _ _ _ (by simpa using h))

theorem takeEcho_bounded (e : Echo) (rest : List Echo) (s : State) (h : s.surround.bounded) (hl : rest.length ≤ 16) :
    (takeEcho e rest s).surround.bounded := by
  have h' := fifo_bounded s rest h hl
  simp only [takeEcho]
  split
  · simpa using h'
  · exact modCounters_bounded _ _ _ (by simpa using h')

@[simp] theorem takeOne_bounded (s : State) (h : s.surround.bounded) : (takeOne s).surround.bounded := by
  have tail (e : Echo) (rest : List Echo) (hf : s.fifo = e :: rest) : rest.length ≤ 16 := by
    have : s.fifo.length ≤ 16 := h.1
    simp [hf] at this
    omega
  simp only [takeOne]
  split
  · exact h
  · rename_i hf _; exact takeEcho_bounded _ _ s h (tail _ _ hf)
  · simpa using h
  · rename_i hf _
    split
    · exact takeEcho_bounded _ _ s h (tail _ _ hf)
    · simpa using h

@[simp] theorem takeLoop_bounded (n : Nat) (s : State) (h : s.surround.bounded) : (takeLoop n s).surround.bounded := by
  induction n generalizing s with
  | zero => exact h
  | succ n ih => simp only [takeLoop]; split <;> simp [ih, h]

@[simp] theorem serveComparator_bounded (s : State) (h : s.surround.bounded) : (serveComparator s).surround.bounded := by
  simp [serveComparator, h]

@[simp] theorem launchLoop_bounded (k : Fin 4) (n : Nat) (s : State) (h : s.surround.bounded) :
    (launchLoop k n s).surround.bounded := by
  induction n generalizing s with
  | zero => exact h
  | succ n ih =>
    simp only [launchLoop]
    (repeat' split) <;> try exact h
    refine ih _ ?_
    simp only [launchOne]
    split
    · exact serveComparator_bounded _ (by simpa using h)
    · exact launch_bounded _ _ _ _ h

@[simp] theorem serveLaunches_bounded (s : State) (h : s.surround.bounded) : (serveLaunches s).surround.bounded := by
  simp only [serveLaunches]
  generalize List.finRange 4 = l
  induction l generalizing s with
  | nil => exact h
  | cons k l ih => exact ih _ (launchLoop_bounded k 128 s h)

/-- A whole event's service keeps the bounds. -/
@[simp] theorem settle_bounded (s : State) (h : s.surround.bounded) : (settle s).surround.bounded := by
  simp only [settle, issue_surround, surround_eventNo, serveStop_surround, flushPhaseWords_surround, serveCustody_surround,
    serveJournal_surround, serveSummaries_surround]
  exact serveLaunches_bounded _ (serveComparator_bounded _ (by simpa using h))

@[simp] theorem monitorTo_bounded (k : Fin 4) (st : LinkState) (timer : Option Nat) (s : State) (h : s.surround.bounded) :
    (monitorTo k st timer s).surround.bounded := by
  simp only [monitorTo, linkStateReport_surround]
  exact modLink_bounded _ _ _ h (h.2 k)

@[simp] theorem signalLost_bounded (k : Fin 4) (s : State) (h : s.surround.bounded) : (signalLost k s).surround.bounded := by
  have h' : (modLink k (fun l => { l with signal := false, txQueue := if l.started then [] else l.txQueue }) s).surround.bounded :=
    modLink_bounded _ _ _ h (by
      simp only
      split
      · exact Nat.zero_le _
      · exact h.2 k)
  simp only [signalLost]
  (repeat' split) <;> simp [h']

@[simp] theorem signalPresent_bounded (k : Fin 4) (s : State) (h : s.surround.bounded) :
    (signalPresent k s).surround.bounded := by
  have h' : (modLink k (fun l => { l with signal := true }) s).surround.bounded := modLink_bounded _ _ _ h (h.2 k)
  simp only [signalPresent]
  (repeat' split) <;> simp [h']

@[simp] theorem holdOffExpires_bounded (k : Fin 4) (s : State) (h : s.surround.bounded) :
    (holdOffExpires k s).surround.bounded := by
  have h' (st : LinkState) : (modLink k (fun l => { l with state := st, holdOff := none }) s).surround.bounded :=
    modLink_bounded _ _ _ h (h.2 k)
  simp only [holdOffExpires, reportChange]
  (repeat' split) <;> simp [h, h']

@[simp] theorem receiveFrame_bounded (k : Fin 4) (frame : List Byte) (s : State) (h : s.surround.bounded) :
    (receiveFrame k frame s).surround.bounded := by
  simp only [receiveFrame]
  (repeat' split)
  · exact modCounters_bounded _ _ _ h
  · exact modCounters_bounded _ _ _ (fifo_bounded _ _ h (by simp; omega))
  · exact modCounters_bounded _ _ _ h

/-- Every link replaced by one whose transmit queue is no longer. -/
theorem links_bounded (s : State) (f : Link → Link) (h : s.surround.bounded)
    (hf : ∀ l : Link, (f l).txQueue.length ≤ l.txQueue.length) : ({ s with links := vmap f s.links } : State).surround.bounded :=
  ⟨h.1, fun k => by
    show ((vmap f s.links).get k).txQueue.length ≤ 32
    rw [vmap_get]
    exact Nat.le_trans (hf _) (h.2 k)⟩

@[simp] theorem countTimers_bounded (s : State) (h : s.surround.bounded) : (countTimers s).surround.bounded := by
  have h' := links_bounded s (fun l => if monitorsRest s then l else { l with holdOff := countDown l.holdOff }) h
    (fun l => by split <;> exact Nat.le_refl _)
  simp only [countTimers]
  split <;> exact h'

@[simp] theorem startLink_bounded (s : State) (k : Fin 4) (h : s.surround.bounded) : (startLink s k).surround.bounded := by
  simp only [startLink, linkStatusWrite_surround]
  generalize ((s.linkParams k).enabled && (s.link k).signal) = up
  refine modLink_bounded k _ s h ?_
  exact Nat.zero_le 32

@[simp] theorem linkStep_bounded (s : State) (h : s.surround.bounded) : (linkStep s).surround.bounded := by
  simp only [linkStep]
  generalize List.finRange 4 = l
  induction l generalizing s with
  | nil => exact h
  | cons k l ih => rw [List.foldl_cons]; exact ih _ (startLink_bounded s k h)

theorem clearingStep_bounded (s : State) (h : s.surround.bounded) : (clearingStep s).surround.bounded := by
  have h' := links_bounded (orphan (fun g => decide (g ≠ .phaseWord)) s) (fun l => { l with counters := {} })
    (by simpa using h) (fun _ => Nat.le_refl _)
  simp only [clearingStep, statusWrite_surround, slotWordsWrite_surround]
  exact ⟨Nat.zero_le 16, h'.2⟩

theorem hold_bounded (s : State) : (hold s).surround.bounded :=
  ⟨Nat.zero_le 16, fun k => by
    have : (hold s).surround.links.get k = { signal := ((cutAccess s).links.get k).signal } := vmap_get _ _ _
    simp [this]⟩

/-- A bus fault only shortens transmit queues. -/
theorem busFault_bounded (addr : Word) (s : State) (h : s.surround.bounded) : (busFault addr s).surround.bounded := by
  have cut : (cutAccess s).surround.bounded := by
    simp only [cutAccess]
    (repeat' split) <;> exact h
  have := links_bounded (dropQueues (cutAccess s)) freezeLink (by simpa using cut)
    (fun l => by simp [freezeLink])
  exact ⟨this.1, this.2⟩

end Sys2Proof.Machine
end

