-- ==== Sys2Proof/Laws/Delivery.lean ====
section
/-! SUPPORT. The end of an access, a load's steps, a bus fault and the hold: once what each can do to the host side and the
registers. -/

namespace Sys2Proof.Machine

theorem memory_eq (s : State) : s.memory = s.hostSide.memory := rfl

/-! ### What the requesters do when told (10 R178) -/

/-- Only the Control Block's reads and an entry's last write reach the host side, the links, the FIFO and the journal's ring. -/
theorem deliver_surround (g : Tag) (data : Word) (s : State) (h : g ≠ .controlBlock) (h' : g ≠ .journalEnd) :
    (deliver g data s).surround = s.surround := by
  cases g <;> simp_all [deliver, stoppingEnds]
  split <;> simp

/-- Only the Control Block's reads reach the host side. -/
theorem deliver_host (g : Tag) (data : Word) (s : State) (h : g ≠ .controlBlock) :
    (deliver g data s).surround.host = s.surround.host := by
  by_cases h' : g = .journalEnd
  · subst h'; exact entryWritten_host s
  · rw [deliver_surround g data s h h']

/-- Only the Control Block's reads and the HALTED write move the run state otherwise than by ending a load. -/
theorem deliver_drift (g : Tag) (data : Word) (s : State) (h : g ≠ .controlBlock) (h' : g ≠ .haltedWrite) :
    Drift s.regs (deliver g data s).regs := by
  cases g <;> simp_all [deliver]

/-! ### The load (10 R174 R176) -/

@[simp] theorem startLoad_memory (value : Word) (s : State) : (startLoad value s).memory = s.memory := by
  simp only [startLoad]
  split <;> rfl

theorem goOnLoadWindows_host (s : State) : (goOnLoadWindows s).surround.host = s.surround.host := by
  rw [goOnLoadWindows_surround]

/-- The load's steps take the parameters and leave the rest of the host side. -/
theorem loadSteps_host (ws : List Word) (s : State) :
    (loadSteps ws s).hostSide = { s.hostSide with params := { paramsOf ws with controlBlock := s.regs.blockBase } } := by
  simp only [hostSide_eq, loadSteps, beginWindowStep_surround, linkStep_host, journalStep_host, clearingStep_host]
  rw [runStateWrite_surround, modLoader_surround]
  rfl

/-- The end of a Control Block read: the host side but for the parameters and the fault registers, and the run state, which stays
or becomes HALTED. -/
theorem controlBlockRead_memory (data : Word) (s : State) : (controlBlockRead data s).memory = s.memory := by
  simp only [controlBlockRead, controlBlockDone]
  (repeat' split)
  · rfl
  · rw [memory_eq, hostSide_eq, readControlBlock_surround]; rfl
  · rfl
  · rw [memory_eq, loadSteps_host]; rfl

theorem controlBlockRead_run (data : Word) (s : State) :
    (controlBlockRead data s).run = s.run ∨ (s.run = .loading ∧ (controlBlockRead data s).run = .halted) := by
  by_cases hl : s.run = .loading
  · simp only [controlBlockRead, controlBlockDone, hl, ne_eq, not_true_eq_false, if_false]
    (repeat' split)
    · left; simpa [State.run] using hl
    · right; exact ⟨trivial, rfl⟩
    · left; simpa [State.run] using hl
  · left; simp [controlBlockRead, hl]

theorem controlBlockRead_bounded (data : Word) (s : State) (h : s.surround.bounded) :
    (controlBlockRead data s).surround.bounded := by
  simp only [controlBlockRead, controlBlockDone]
  (repeat' split)
  · exact h
  · simpa using h
  · exact h
  · simp only [loadSteps, beginWindowStep_surround]
    refine linkStep_bounded _ ?_
    simp only [journalStep, statusWrite_surround, modJournal_bounded]
    refine clearingStep_bounded _ ?_
    rw [runStateWrite_surround, modLoader_surround]
    exact h

/-- Whatever an access was for, its end leaves memory to the access itself. -/
theorem deliver_memory (g : Tag) (data : Word) (s : State) : (deliver g data s).memory = s.memory := by
  by_cases h : g = .controlBlock
  · subst h; exact controlBlockRead_memory data s
  · rw [memory_eq, hostSide_eq, deliver_host g data s h]; rfl

theorem deliver_bounded (g : Tag) (data : Word) (s : State) (hb : s.surround.bounded) :
    (deliver g data s).surround.bounded := by
  by_cases h : g = .controlBlock
  · subst h; exact controlBlockRead_bounded data s hb
  · by_cases h' : g = .journalEnd
    · subst h'; exact entryWritten_bounded s hb
    · rw [deliver_surround g data s h h']; exact hb

theorem settle_memory (s : State) : (settle s).memory = s.memory := by
  rw [memory_eq, settle_hostSide]; rfl

/-! ### The bus response -/

/-- A response changes memory by the word of its access only (10 R178). -/
theorem busResponse_memory (data : Word) (s : State) :
    (busResponse data s).memory =
      match s.master.port with
      | some (_, a) => (endAccess a s).memory
      | none => s.memory := by
  simp only [busResponse]
  cases s.master.port with
  | none => rfl
  | some x => exact (settle_memory _).trans (deliver_memory _ _ _)

theorem busResponse_memoryWf (data : Word) (s : State) (h : memoryWf s.memory = true) :
    memoryWf (busResponse data s).memory = true := by
  rw [busResponse_memory]
  split
  · exact endAccess_wf _ s h
  · exact h

theorem busResponse_bounded (data : Word) (s : State) (h : s.surround.bounded) : (busResponse data s).surround.bounded := by
  simp only [busResponse]
  split
  · exact settle_bounded _ (deliver_bounded _ _ _ h)
  · exact h

theorem endOf_cases (last : Bool) (data : Word) (s : State) : endOf last data s = s ∨ endOf last data s = busResponse data s := by
  cases last <;> simp [endOf]

/-! ### Bus faults and the hold (10 R178 R180) -/

theorem faultAccess_memoryWf (s : State) (h : memoryWf s.memory = true) : memoryWf (faultAccess s).memory = true := by
  simp only [faultAccess]
  split
  · exact cutAccess_wf s h
  · exact h

theorem faultAccess_bounded (s : State) (h : s.surround.bounded) : (faultAccess s).surround.bounded := by
  simp only [faultAccess]
  split
  · exact busFault_bounded _ s h
  · exact h

theorem hold_memoryWf (s : State) (h : memoryWf s.memory = true) : memoryWf (hold s).memory = true := cutAccess_wf s h

end Sys2Proof.Machine
end

