-- ==== Sys2Proof/Laws/Commands.lean ====
section
/-! SUPPORT. What a command can do, said once: every command but the pins' hold leaves the state, or does one of the actions listed
in `Acts`. A relation that holds of every action holds of every command and of every step. -/

namespace Sys2Proof.Machine

/-! ### Register writes and time -/

theorem controlFields_hostSide (value : Word) (s : State) :
    (controlFields value s).hostSide = { s.hostSide with irqEn := value.getLsbD 10 } := by
  simp only [controlFields]
  split <;> rfl

/-- A CONTROL write reaches the host side in IRQ_EN only (10 R169). -/
theorem controlWrite_hostSide (value : Word) (s : State) :
    (controlWrite value s).hostSide = { s.hostSide with irqEn := value.getLsbD 10 } := by
  rw [← controlFields_hostSide]
  simp only [controlWrite]
  (repeat' split)
  · rw [settle_hostSide, hostSide_eq, haltRequest_surround]; rfl
  · rw [settle_hostSide, hostSide_eq, trigger_surround]; rfl
  · rfl

/-- The clock set and the windows evaluated: the host side in the clock only (02 R24 R25). -/
theorem evalWindows_clock_hostSide (c : Clock) (s : State) :
    (evalWindows { s with clock := c }).hostSide = { s.hostSide with clock := c } := by
  rw [hostSide_eq, evalWindows_surround]
  rfl

/-- A BLOCK_BASE write leaves memory (10 R170). -/
theorem baseWrite_memory (value : Word) (s : State) : (baseWrite value s).memory = s.memory := by
  simp only [baseWrite]
  split
  · exact startLoad_memory value s
  · rfl

/-- A millisecond reaches the host side in the clock only. -/
theorem tick_memory (s : State) : (tick s).memory = s.memory := by
  have c : (countTimers s).memory = s.memory := by rw [memory_eq, hostSide_eq, countTimers_host]; rfl
  simp only [tick]
  split
  · exact c
  · rw [settle_memory, secondTick, memory_eq, evalWindows_clock_hostSide]
    exact c

/-! ### The actions -/

/-- A relation between states that every action of the part is in. -/
structure Acts (R : State → State → Prop) : Prop where
  stays : ∀ s, R s s
  release : ∀ s, R s { s with held := false }
  select : ∀ s x, R s { s with regs := { s.regs with select := x } }
  events : ∀ s (x : BitVec 10), R s { s with regs := { s.regs with events := s.regs.events &&& x } }
  mask : ∀ s x, R s { s with regs := { s.regs with mask := x } }
  control : ∀ s value, R s (controlWrite value s)
  base : ∀ s value, R s (settle (baseWrite value s))
  mark : ∀ s value, R s (settle (markWrite value s))
  time : ∀ s value, R s (settle (evalWindows { s with clock := { netTime := value, subCount := 0 } }))
  response : ∀ s data, R s (busResponse data s)
  fault : ∀ s, R s (faultAccess s)
  second : ∀ s, R s (settle (secondTick s))
  settled : ∀ s w, R s (settle (settleCheck w s))
  lost : ∀ s k, R s (signalLost k s)
  lostServed : ∀ s k, R s (settle (signalLost k s))
  present : ∀ s k, R s (signalPresent k s)
  presentServed : ∀ s k, R s (settle (signalPresent k s))
  holdOff : ∀ s k, R s (settle (holdOffExpires k s))
  sent : ∀ s k, R s (modLink k (fun l => { l with txQueue := l.txQueue.tail }) s)
  frame : ∀ s k bs, R s (settle (receiveFrame k bs s))
  gap : ∀ s k, R s (settle (modSched k (fun q => { q with gap := none }) s))
  timeout : ∀ s i, R s (settle (timeoutEntry i s))
  backoff : ∀ s i, R s (settle (backoffDone i s))
  aligned : ∀ s, R s (settle (finishAlignment s))
  polled : ∀ s, R s (settle (poll s))

section

variable {R : State → State → Prop} {s t : State}

theorem whenActive_acts {f : State → State} (h : whenActive f s = .next t) (h0 : R s s) (h1 : R s (f s)) : R s t := by
  simp only [whenActive, Host.Outcome.next.injEq] at h
  subst h
  split <;> assumption

theorem whenSelected_acts {index : Nat} {f : State → State} (h : whenSelected index f s = .next t) (h0 : R s s)
    (h1 : R s (f s)) : R s t := by
  simp only [whenSelected, Host.Outcome.next.injEq] at h
  subst h
  split <;> assumption

theorem admitted_acts {p : Bool} {f : State → State} (h : admitted p f s = .next t) (h0 : R s s) (h1 : R s (f s)) : R s t := by
  simp only [admitted, Host.Outcome.next.injEq] at h
  subst h
  split <;> assumption

theorem ite_acts {p : Prop} [Decidable p] {u v : State} (h : (Host.Outcome.next (if p then u else v) : Answered) = .next t)
    (h0 : R s u) (h1 : R s v) : R s t := by
  simp only [Host.Outcome.next.injEq] at h
  subst h
  split <;> assumption

theorem endOf_acts {last : Bool} {data : Word} (h : (Host.Outcome.next (endOf last data s) : Answered) = .next t)
    (h0 : R s s) (h1 : R s (busResponse data s)) : R s t :=
  ite_acts (p := last = true) h h1 h0

theorem same_acts {u : State} (h : (Host.Outcome.next u : Answered) = .next t) (h0 : R s u) : R s t := by
  cases h
  exact h0

/-- Every command holds the part, as the pins do, or does one of the actions. -/
theorem exec_acts (A : Acts R) (c : Instr) (h : exec c s = .next t) :
    (t = hold s ∧ (c = .powerOn ∨ c = .resetAssert)) ∨ R s t := by
  have ends (last : Bool) (data : Word) (h : (Host.Outcome.next (endOf last data s) : Answered) = .next t) : R s t :=
    endOf_acts h (A.stays s) (A.response s data)
  cases c with
  | powerOn => left; cases h; exact ⟨rfl, .inl rfl⟩
  | resetAssert => left; cases h; exact ⟨rfl, .inr rfl⟩
  | resetRelease => right; exact same_acts h (A.release s)
  | selectWrite v => right; simp only [exec, execSelectWrite] at h; exact whenActive_acts h (A.stays s) (A.select s _)
  | halt v => right; simp only [exec, execHalt] at h; exact whenSelected_acts h (A.stays s) (A.control s v)
  | pollNow v => right; simp only [exec, execPollNow] at h; exact whenSelected_acts h (A.stays s) (A.control s v)
  | irqEnWrite v => right; exact ite_acts h (A.stays s) (A.control s v)
  | eventsWrite v => right; simp only [exec, execEventsWrite] at h; exact whenSelected_acts h (A.stays s) (A.events s _)
  | eventMaskWrite v => right; simp only [exec, execEventMaskWrite] at h; exact whenSelected_acts h (A.stays s) (A.mask s _)
  | blockBaseWrite v => right; simp only [exec, execBlockBaseWrite] at h; exact whenSelected_acts h (A.stays s) (A.base s v)
  | journalMarkWrite v => right; simp only [exec, execJournalMarkWrite] at h; exact whenSelected_acts h (A.stays s) (A.mark s v)
  | netTimeWrite v => right; simp only [exec, execNetTimeWrite] at h; exact whenSelected_acts h (A.stays s) (A.time s v)
  | registerWriteIgnored v => right; exact same_acts h (A.stays s)
  | controlBlockReadDone d => right; exact ends _ d h
  | loadWindowReadDone d => right; exact ends _ d h
  | loadCustodyReadDone d => right; exact ends _ d h
  | stoppingEnd d => right; exact ends _ d h
  | busErrorResponse => right; exact same_acts h (A.fault s)
  | busTimeout => right; exact ite_acts h (A.fault s) (A.stays s)
  | memoryAccessDone d => right; exact same_acts h (A.response s d)
  | secondEvent => right; simp only [exec, execSecondEvent] at h; exact whenActive_acts h (A.stays s) (A.second s)
  | settleExpiry w => right; simp only [exec, execSettleExpiry] at h; exact admitted_acts h (A.stays s) (A.settled s w)
  | windowRefreshDone d => right; exact ends _ d h
  | phaseWordWritten d => right; exact ends _ d h
  | signalLost k =>
    right
    simp only [exec, execSignalLost] at h
    refine admitted_acts h (A.stays s) ?_
    show R s (if s.held then Sys2Proof.Machine.signalLost k s else settle (Sys2Proof.Machine.signalLost k s))
    split
    · exact A.lost s k
    · exact A.lostServed s k
  | signalPresent k =>
    right
    simp only [exec, execSignalPresent] at h
    refine admitted_acts h (A.stays s) ?_
    show R s (if s.held then Sys2Proof.Machine.signalPresent k s else settle (Sys2Proof.Machine.signalPresent k s))
    split
    · exact A.present s k
    · exact A.presentServed s k
  | holdOffExpiry k => right; simp only [exec, execHoldOffExpiry] at h; exact admitted_acts h (A.stays s) (A.holdOff s k)
  | transmitFrameDone k => right; exact same_acts h (A.sent s k)
  | frameReceived k bs => right; simp only [exec, execFrameReceived] at h; exact admitted_acts h (A.stays s) (A.frame s k bs)
  | launchGapExpiry k => right; simp only [exec, execLaunchGapExpiry] at h; exact admitted_acts h (A.stays s) (A.gap s k)
  | probeTimeout i => right; simp only [exec, execProbeTimeout] at h; exact admitted_acts h (A.stays s) (A.timeout s i)
  | backoffExpiry i => right; simp only [exec, execBackoffExpiry] at h; exact admitted_acts h (A.stays s) (A.backoff s i)
  | hostWordReadDone d => right; exact ends _ d h
  | routeReadDone d => right; exact ends _ d h
  | reachMapReadDone d => right; exact ends _ d h
  | alignmentDone => right; simp only [exec, execAlignmentDone] at h; exact admitted_acts h (A.stays s) (A.aligned s)
  | engineWordWritten d => right; exact ends _ d h
  | journalEntryWritten d => right; exact ends _ d h
  | pollTimerExpiry => right; simp only [exec, execPollTimerExpiry] at h; exact admitted_acts h (A.stays s) (A.polled s)
  | epochReadDone d => right; exact ends _ d h
  | requestControlReadDone d => right; exact ends _ d h
  | verifyCircuit d => right; exact ends _ d h
  | verifySpans d => right; exact ends _ d h
  | abort d => right; exact ends _ d h
  | requestHandbackDone d => right; exact ends _ d h

/-- The timers that run out on an empty queue are no pins. -/
theorem dueCommand_no_pin (c : Instr) (h : dueCommand s = some c) : c ≠ .powerOn ∧ c ≠ .resetAssert := by
  unfold dueCommand at h
  (repeat' split at h) <;> simp_all <;> (subst h; simp)

/-- Every step takes the command at the front with the queue's rest, or, on an empty queue, idles, runs a timer's command, or lets a
millisecond pass. -/
theorem step_cases (h : step s = .next t) :
    (∃ c rest, s.pending = c :: rest ∧ exec c { s with pending := rest } = .next t) ∨
    (s.pending = [] ∧ (t = s ∨ t = tick s ∨
      ∃ c, dueCommand s = some c ∧ c ≠ .powerOn ∧ c ≠ .resetAssert ∧ exec c s = .next t)) := by
  simp only [step, stepQueue] at h
  split at h
  · rename_i hp
    right
    refine ⟨hp, ?_⟩
    simp only [idleStep] at h
    split at h
    · left; cases h; rfl
    · split at h
      · rename_i c hc
        right; right
        exact ⟨c, hc, (dueCommand_no_pin c hc).1, (dueCommand_no_pin c hc).2, h⟩
      · right; left; cases h; rfl
  · rename_i c rest hp
    left
    exact ⟨c, rest, hp, h⟩

end

/-- A property that the hold, every action and the passing of a millisecond keep is kept by every step. -/
theorem step_keeps (P : State → Prop) (A : Acts (fun s t => P s → P t)) (queue : ∀ s l, P s → P { s with pending := l })
    (held : ∀ s, P s → P (hold s)) (ms : ∀ s, P s → P (tick s)) (s t : State) (hs : P s) (h : step s = .next t) : P t := by
  have run (u : State) (hu : P u) (c : Instr) (h : exec c u = .next t) : P t := by
    rcases exec_acts A c h with ⟨rfl, -⟩ | h
    · exact held u hu
    · exact h hu
  rcases step_cases h with ⟨c, rest, -, h⟩ | ⟨-, rfl | rfl | ⟨c, -, -, -, h⟩⟩
  · exact run _ (queue s rest hs) c h
  · exact hs
  · exact ms s hs
  · exact run s hs c h

end Sys2Proof.Machine
end

