-- ==== Sys2Proof/Laws/Responses.lean ====
section
/-! SUPPORT. What a statement about a response needs at once: the access on the bus ends and its requester is told, the queues of the
Memory Master after a hand-over, and what a whole event's service keeps. -/

namespace Sys2Proof.Machine

/-! ### The queues of the Memory Master (10 R178) -/

theorem Requester.index_injective {q r : Requester} (h : q.index = r.index) : q = r := by
  have key : ∀ a b : Requester, a.index.val = b.index.val → a = b := by
    intro a b hv
    cases a <;> cases b <;> simp_all [Requester.index] <;> omega
  exact key q r (congrArg Fin.val h)

theorem setQueue_queue (r q : Requester) (l : List Access) (s : State) :
    (setQueue r l s).queue q = if q = r then l else s.queue q := by
  by_cases h : q = r
  · subst h
    simp only [if_true]
    exact vput_get_same _ _ _
  · rw [if_neg h]
    exact vput_get_other _ _ _ _ (fun e => h (Requester.index_injective e))

/-- An access handed over joins its requester's queue and no other. -/
theorem hand_queue_of (r q : Requester) (a : Access) (s : State) :
    (hand r a s).queue q = if q = r then s.queue r ++ [a] else s.queue q := setQueue_queue r q _ s

theorem handRead_queue_of (r q : Requester) (addr : Word) (tag : Tag) (s : State) :
    (handRead r addr tag s).queue q = if q = r then s.queue r ++ [⟨addr, none, tag⟩] else s.queue q := hand_queue_of r q _ s

theorem handWrite_queue_of (r q : Requester) (addr data : Word) (tag : Tag) (s : State) :
    (handWrite r addr data tag s).queue q = if q = r then s.queue r ++ [⟨addr, some data, tag⟩] else s.queue q :=
  hand_queue_of r q _ s

@[simp] theorem setEvent_queue (e : Event) (s : State) (r : Requester) : (setEvent e s).queue r = s.queue r := rfl
@[simp] theorem setRun_queue (x : RunState) (s : State) (r : Requester) : (setRun x s).queue r = s.queue r := rfl
@[simp] theorem modEntry_queue (i : Fin 64) (f : Entry → Entry) (s : State) (r : Requester) :
    (modEntry i f s).queue r = s.queue r := rfl
@[simp] theorem modSched_queue (k : Fin 4) (f : LaunchSched → LaunchSched) (s : State) (r : Requester) :
    (modSched k f s).queue r = s.queue r := rfl
@[simp] theorem setOutcomes_queue (l : List (Fin 64)) (s : State) (r : Requester) : (setOutcomes l s).queue r = s.queue r := rfl
@[simp] theorem modCampaign_queue (i : Fin 8) (f : Campaign → Campaign) (s : State) (r : Requester) :
    (modCampaign i f s).queue r = s.queue r := rfl
@[simp] theorem setOffer_queue (o : Option (Fin 8)) (s : State) (r : Requester) : (setOffer o s).queue r = s.queue r := rfl
@[simp] theorem modLink_queue (k : Fin 4) (f : Link → Link) (s : State) (r : Requester) : (modLink k f s).queue r = s.queue r := rfl
@[simp] theorem modWindow_queue (w : Fin 64) (f : Window → Window) (s : State) (r : Requester) :
    (modWindow w f s).queue r = s.queue r := rfl
@[simp] theorem setMapEntry_queue (c : Nat) (e : MapEntry) (s : State) (r : Requester) :
    (setMapEntry c e s).queue r = s.queue r := rfl
@[simp] theorem setAction_queue (a : Option Action) (s : State) (r : Requester) : (setAction a s).queue r = s.queue r := rfl
@[simp] theorem askCustody_queue (x : CustodyReq) (s : State) (r : Requester) : (askCustody x s).queue r = s.queue r := rfl
@[simp] theorem modReader_queue (f : Reader → Reader) (s : State) (r : Requester) : (modReader f s).queue r = s.queue r := rfl
@[simp] theorem modCmp_queue (f : Comparator → Comparator) (s : State) (r : Requester) : (modCmp f s).queue r = s.queue r := rfl
@[simp] theorem modJournal_queue (f : Journal → Journal) (s : State) (r : Requester) : (modJournal f s).queue r = s.queue r := rfl
@[simp] theorem modLoader_queue (f : Loader → Loader) (s : State) (r : Requester) : (modLoader f s).queue r = s.queue r := rfl
@[simp] theorem setFence_queue (f : List (Nat × Nat)) (s : State) (r : Requester) : (setFence f s).queue r = s.queue r := rfl
@[simp] theorem endAccess_queue (a : Access) (s : State) (r : Requester) : (endAccess a s).queue r = s.queue r := rfl
@[simp] theorem portFreed_queue (s : State) (r : Requester) : s.portFreed.queue r = s.queue r := rfl

/-- An event bit set, and every other as it stood (10 R171). -/
@[simp] theorem setEvent_hasEvent (e f : Event) (s : State) : (setEvent e s).hasEvent f = (decide (e = f) || s.hasEvent f) := by
  have key : ∀ e f : Event, e.bit.getLsbD f.index = decide (e = f) := by
    intro e f; cases e <;> cases f <;> rfl
  simp [setEvent, State.hasEvent, key, Bool.or_comm]

/-! ### The end of the access on the bus -/

/-- A response that ends a command's operation: the access leaves the port, its requester is told, and the event is served. -/
theorem endOf_response (last : Bool) (data : Word) (s : State) (r : Requester) (x : Access) (hp : s.master.port = some (r, x))
    (hl : last = true) : endOf last data s = settle (deliver x.tag data (endAccess x s)) := by
  simp [endOf, hl, busResponse, hp]

/-- The end of a read changes the port alone. -/
theorem endAccess_read (s : State) (x : Access) (hw : x.write = none) : endAccess x s = s.portFreed := by
  simp [endAccess, State.portFreed, hw]

@[simp] theorem portFreed_pending (s : State) : s.portFreed.pending = s.pending := rfl
@[simp] theorem portFreed_held (s : State) : s.portFreed.held = s.held := rfl
@[simp] theorem portFreed_regs (s : State) : s.portFreed.regs = s.regs := rfl
@[simp] theorem portFreed_clock (s : State) : s.portFreed.clock = s.clock := rfl
@[simp] theorem portFreed_params (s : State) : s.portFreed.params = s.params := rfl
@[simp] theorem portFreed_loader (s : State) : s.portFreed.loader = s.loader := rfl
@[simp] theorem portFreed_memory (s : State) : s.portFreed.memory = s.memory := rfl
@[simp] theorem portFreed_custody (s : State) : s.portFreed.custody = s.custody := rfl
@[simp] theorem portFreed_sched (s : State) : s.portFreed.sched = s.sched := rfl
@[simp] theorem portFreed_ctrl (s : State) : s.portFreed.ctrl = s.ctrl := rfl
@[simp] theorem portFreed_probes (s : State) : s.portFreed.probes = s.probes := rfl
@[simp] theorem portFreed_links (s : State) : s.portFreed.links = s.links := rfl
@[simp] theorem portFreed_fifo (s : State) : s.portFreed.fifo = s.fifo := rfl
@[simp] theorem portFreed_cmp (s : State) : s.portFreed.cmp = s.cmp := rfl
@[simp] theorem portFreed_journal (s : State) : s.portFreed.journal = s.journal := rfl
@[simp] theorem portFreed_reader (s : State) : s.portFreed.reader = s.reader := rfl
@[simp] theorem portFreed_freeCount (s : State) : s.portFreed.freeCount = s.freeCount := rfl
@[simp] theorem portFreed_eventNo (s : State) : s.portFreed.eventNo = s.eventNo := rfl
@[simp] theorem portFreed_run (s : State) : s.portFreed.run = s.run := rfl
@[simp] theorem portFreed_entry (s : State) (i : Fin 64) : s.portFreed.entry i = s.entry i := rfl
@[simp] theorem portFreed_launchSched (s : State) (k : Fin 4) : s.portFreed.launchSched k = s.launchSched k := rfl
@[simp] theorem portFreed_campaign (s : State) (i : Fin 8) : s.portFreed.campaign i = s.campaign i := rfl
@[simp] theorem portFreed_window (s : State) (w : Fin 64) : s.portFreed.window w = s.window w := rfl
@[simp] theorem portFreed_link (s : State) (k : Fin 4) : s.portFreed.link k = s.link k := rfl
@[simp] theorem portFreed_mapEntry (s : State) (c : Nat) : s.portFreed.mapEntry c = s.mapEntry c := rfl
@[simp] theorem portFreed_fenceCount (s : State) (x : Nat) : s.portFreed.fenceCount x = s.fenceCount x := rfl

@[simp] theorem portFreed_hostSide (s : State) : s.portFreed.hostSide = s.hostSide := rfl

/-- An event that leaves the host side as it stands leaves it so after its service, and every byte of memory with it. -/
theorem settle_keeps {s u : State} (h : u.hostSide = s.hostSide) :
    (settle u).hostSide = s.hostSide ∧ ∀ a, readByte (settle u).memory a = readByte s.memory a := by
  refine ⟨(settle_hostSide u).trans h, fun a => ?_⟩
  rw [settle_memory, memory_eq, h]
  rfl

/-- A response that writes reaches memory inside the word it writes only, whatever its requester does. -/
theorem response_outside (data : Word) (s : State) (r : Requester) (x : Access) (hp : s.master.port = some (r, x)) (a : Nat)
    (ha : s.outsidePort a) : readByte (settle (deliver x.tag data (endAccess x s))).memory a = readByte s.memory a := by
  rw [settle_memory, deliver_memory]
  simp only [endAccess]
  cases hx : x.write with
  | none => rfl
  | some w => exact readByte_writeWord_outside _ _ _ _ (ha r x w hp hx)

end Sys2Proof.Machine
end

