-- ==== Sys2Proof/Laws/Elements.lean ====
section
/-! SUPPORT. Which element of a block's table an update leaves as it stands, and what the shared operations of the campaigns and the
Custody Unit can do, said once: the map entry replaced, the first index that passes a test, the disturbance of an action, the end of
a selection step. -/

namespace Sys2Proof.Machine

/-! ### handRead -/

@[simp] theorem handRead_campaign (r : Requester) (a : Word) (g : Tag) (s : State) (i : Fin 8) :
    (handRead r a g s).campaign i = s.campaign i := rfl

@[simp] theorem handRead_entry (r : Requester) (a : Word) (g : Tag) (s : State) (i : Fin 64) :
    (handRead r a g s).entry i = s.entry i := rfl

@[simp] theorem handRead_mapEntry (r : Requester) (a : Word) (g : Tag) (s : State) (i : Nat) :
    (handRead r a g s).mapEntry i = s.mapEntry i := rfl

@[simp] theorem handRead_launchSched (r : Requester) (a : Word) (g : Tag) (s : State) (i : Fin 4) :
    (handRead r a g s).launchSched i = s.launchSched i := rfl

@[simp] theorem handRead_window (r : Requester) (a : Word) (g : Tag) (s : State) (i : Fin 64) :
    (handRead r a g s).window i = s.window i := rfl

@[simp] theorem handRead_link (r : Requester) (a : Word) (g : Tag) (s : State) (i : Fin 4) :
    (handRead r a g s).link i = s.link i := rfl

@[simp] theorem handRead_fenceCount (r : Requester) (a : Word) (g : Tag) (s : State) (i : Nat) :
    (handRead r a g s).fenceCount i = s.fenceCount i := rfl

/-! ### handWrite -/

@[simp] theorem handWrite_campaign (r : Requester) (a d : Word) (g : Tag) (s : State) (i : Fin 8) :
    (handWrite r a d g s).campaign i = s.campaign i := rfl

@[simp] theorem handWrite_entry (r : Requester) (a d : Word) (g : Tag) (s : State) (i : Fin 64) :
    (handWrite r a d g s).entry i = s.entry i := rfl

@[simp] theorem handWrite_mapEntry (r : Requester) (a d : Word) (g : Tag) (s : State) (i : Nat) :
    (handWrite r a d g s).mapEntry i = s.mapEntry i := rfl

@[simp] theorem handWrite_launchSched (r : Requester) (a d : Word) (g : Tag) (s : State) (i : Fin 4) :
    (handWrite r a d g s).launchSched i = s.launchSched i := rfl

@[simp] theorem handWrite_window (r : Requester) (a d : Word) (g : Tag) (s : State) (i : Fin 64) :
    (handWrite r a d g s).window i = s.window i := rfl

@[simp] theorem handWrite_link (r : Requester) (a d : Word) (g : Tag) (s : State) (i : Fin 4) :
    (handWrite r a d g s).link i = s.link i := rfl

@[simp] theorem handWrite_fenceCount (r : Requester) (a d : Word) (g : Tag) (s : State) (i : Nat) :
    (handWrite r a d g s).fenceCount i = s.fenceCount i := rfl

/-! ### askCustody -/

@[simp] theorem askCustody_campaign (q : CustodyReq) (s : State) (i : Fin 8) :
    (askCustody q s).campaign i = s.campaign i := rfl

@[simp] theorem askCustody_entry (q : CustodyReq) (s : State) (i : Fin 64) :
    (askCustody q s).entry i = s.entry i := rfl

@[simp] theorem askCustody_mapEntry (q : CustodyReq) (s : State) (i : Nat) :
    (askCustody q s).mapEntry i = s.mapEntry i := rfl

@[simp] theorem askCustody_launchSched (q : CustodyReq) (s : State) (i : Fin 4) :
    (askCustody q s).launchSched i = s.launchSched i := rfl

@[simp] theorem askCustody_window (q : CustodyReq) (s : State) (i : Fin 64) :
    (askCustody q s).window i = s.window i := rfl

@[simp] theorem askCustody_link (q : CustodyReq) (s : State) (i : Fin 4) :
    (askCustody q s).link i = s.link i := rfl

@[simp] theorem askCustody_fenceCount (q : CustodyReq) (s : State) (i : Nat) :
    (askCustody q s).fenceCount i = s.fenceCount i := rfl

/-! ### setAction -/

@[simp] theorem setAction_campaign (a : Option Action) (s : State) (i : Fin 8) :
    (setAction a s).campaign i = s.campaign i := rfl

@[simp] theorem setAction_entry (a : Option Action) (s : State) (i : Fin 64) :
    (setAction a s).entry i = s.entry i := rfl

@[simp] theorem setAction_mapEntry (a : Option Action) (s : State) (i : Nat) :
    (setAction a s).mapEntry i = s.mapEntry i := rfl

@[simp] theorem setAction_launchSched (a : Option Action) (s : State) (i : Fin 4) :
    (setAction a s).launchSched i = s.launchSched i := rfl

@[simp] theorem setAction_window (a : Option Action) (s : State) (i : Fin 64) :
    (setAction a s).window i = s.window i := rfl

@[simp] theorem setAction_link (a : Option Action) (s : State) (i : Fin 4) :
    (setAction a s).link i = s.link i := rfl

@[simp] theorem setAction_fenceCount (a : Option Action) (s : State) (i : Nat) :
    (setAction a s).fenceCount i = s.fenceCount i := rfl

/-! ### setMapEntry -/

@[simp] theorem setMapEntry_campaign (c : Nat) (e : MapEntry) (s : State) (i : Fin 8) :
    (setMapEntry c e s).campaign i = s.campaign i := rfl

@[simp] theorem setMapEntry_entry (c : Nat) (e : MapEntry) (s : State) (i : Fin 64) :
    (setMapEntry c e s).entry i = s.entry i := rfl

@[simp] theorem setMapEntry_launchSched (c : Nat) (e : MapEntry) (s : State) (i : Fin 4) :
    (setMapEntry c e s).launchSched i = s.launchSched i := rfl

@[simp] theorem setMapEntry_window (c : Nat) (e : MapEntry) (s : State) (i : Fin 64) :
    (setMapEntry c e s).window i = s.window i := rfl

@[simp] theorem setMapEntry_link (c : Nat) (e : MapEntry) (s : State) (i : Fin 4) :
    (setMapEntry c e s).link i = s.link i := rfl

@[simp] theorem setMapEntry_fenceCount (c : Nat) (e : MapEntry) (s : State) (i : Nat) :
    (setMapEntry c e s).fenceCount i = s.fenceCount i := rfl

/-! ### modEntry -/

@[simp] theorem modEntry_campaign (e : Fin 64) (f : Entry → Entry) (s : State) (i : Fin 8) :
    (modEntry e f s).campaign i = s.campaign i := rfl

@[simp] theorem modEntry_mapEntry (e : Fin 64) (f : Entry → Entry) (s : State) (i : Nat) :
    (modEntry e f s).mapEntry i = s.mapEntry i := rfl

@[simp] theorem modEntry_window (e : Fin 64) (f : Entry → Entry) (s : State) (i : Fin 64) :
    (modEntry e f s).window i = s.window i := rfl

@[simp] theorem modEntry_link (e : Fin 64) (f : Entry → Entry) (s : State) (i : Fin 4) :
    (modEntry e f s).link i = s.link i := rfl

@[simp] theorem modEntry_fenceCount (e : Fin 64) (f : Entry → Entry) (s : State) (i : Nat) :
    (modEntry e f s).fenceCount i = s.fenceCount i := rfl

/-! ### modSched -/

@[simp] theorem modSched_campaign (k : Fin 4) (f : LaunchSched → LaunchSched) (s : State) (i : Fin 8) :
    (modSched k f s).campaign i = s.campaign i := rfl

@[simp] theorem modSched_mapEntry (k : Fin 4) (f : LaunchSched → LaunchSched) (s : State) (i : Nat) :
    (modSched k f s).mapEntry i = s.mapEntry i := rfl

@[simp] theorem modSched_window (k : Fin 4) (f : LaunchSched → LaunchSched) (s : State) (i : Fin 64) :
    (modSched k f s).window i = s.window i := rfl

@[simp] theorem modSched_link (k : Fin 4) (f : LaunchSched → LaunchSched) (s : State) (i : Fin 4) :
    (modSched k f s).link i = s.link i := rfl

@[simp] theorem modSched_fenceCount (k : Fin 4) (f : LaunchSched → LaunchSched) (s : State) (i : Nat) :
    (modSched k f s).fenceCount i = s.fenceCount i := rfl

/-! ### setOutcomes -/

@[simp] theorem setOutcomes_campaign (l : List (Fin 64)) (s : State) (i : Fin 8) :
    (setOutcomes l s).campaign i = s.campaign i := rfl

@[simp] theorem setOutcomes_entry (l : List (Fin 64)) (s : State) (i : Fin 64) :
    (setOutcomes l s).entry i = s.entry i := rfl

@[simp] theorem setOutcomes_mapEntry (l : List (Fin 64)) (s : State) (i : Nat) :
    (setOutcomes l s).mapEntry i = s.mapEntry i := rfl

@[simp] theorem setOutcomes_launchSched (l : List (Fin 64)) (s : State) (i : Fin 4) :
    (setOutcomes l s).launchSched i = s.launchSched i := rfl

@[simp] theorem setOutcomes_window (l : List (Fin 64)) (s : State) (i : Fin 64) :
    (setOutcomes l s).window i = s.window i := rfl

@[simp] theorem setOutcomes_link (l : List (Fin 64)) (s : State) (i : Fin 4) :
    (setOutcomes l s).link i = s.link i := rfl

@[simp] theorem setOutcomes_fenceCount (l : List (Fin 64)) (s : State) (i : Nat) :
    (setOutcomes l s).fenceCount i = s.fenceCount i := rfl

/-! ### modCampaign -/

@[simp] theorem modCampaign_entry (j : Fin 8) (f : Campaign → Campaign) (s : State) (i : Fin 64) :
    (modCampaign j f s).entry i = s.entry i := rfl

@[simp] theorem modCampaign_mapEntry (j : Fin 8) (f : Campaign → Campaign) (s : State) (i : Nat) :
    (modCampaign j f s).mapEntry i = s.mapEntry i := rfl

@[simp] theorem modCampaign_launchSched (j : Fin 8) (f : Campaign → Campaign) (s : State) (i : Fin 4) :
    (modCampaign j f s).launchSched i = s.launchSched i := rfl

@[simp] theorem modCampaign_window (j : Fin 8) (f : Campaign → Campaign) (s : State) (i : Fin 64) :
    (modCampaign j f s).window i = s.window i := rfl

@[simp] theorem modCampaign_link (j : Fin 8) (f : Campaign → Campaign) (s : State) (i : Fin 4) :
    (modCampaign j f s).link i = s.link i := rfl

@[simp] theorem modCampaign_fenceCount (j : Fin 8) (f : Campaign → Campaign) (s : State) (i : Nat) :
    (modCampaign j f s).fenceCount i = s.fenceCount i := rfl

/-! ### modCmp -/

@[simp] theorem modCmp_campaign (f : Comparator → Comparator) (s : State) (i : Fin 8) :
    (modCmp f s).campaign i = s.campaign i := rfl

@[simp] theorem modCmp_entry (f : Comparator → Comparator) (s : State) (i : Fin 64) :
    (modCmp f s).entry i = s.entry i := rfl

@[simp] theorem modCmp_mapEntry (f : Comparator → Comparator) (s : State) (i : Nat) :
    (modCmp f s).mapEntry i = s.mapEntry i := rfl

@[simp] theorem modCmp_launchSched (f : Comparator → Comparator) (s : State) (i : Fin 4) :
    (modCmp f s).launchSched i = s.launchSched i := rfl

@[simp] theorem modCmp_window (f : Comparator → Comparator) (s : State) (i : Fin 64) :
    (modCmp f s).window i = s.window i := rfl

@[simp] theorem modCmp_link (f : Comparator → Comparator) (s : State) (i : Fin 4) :
    (modCmp f s).link i = s.link i := rfl

@[simp] theorem modCmp_fenceCount (f : Comparator → Comparator) (s : State) (i : Nat) :
    (modCmp f s).fenceCount i = s.fenceCount i := rfl

/-! ### modWindow -/

@[simp] theorem modWindow_campaign (w : Fin 64) (f : Window → Window) (s : State) (i : Fin 8) :
    (modWindow w f s).campaign i = s.campaign i := rfl

@[simp] theorem modWindow_entry (w : Fin 64) (f : Window → Window) (s : State) (i : Fin 64) :
    (modWindow w f s).entry i = s.entry i := rfl

@[simp] theorem modWindow_mapEntry (w : Fin 64) (f : Window → Window) (s : State) (i : Nat) :
    (modWindow w f s).mapEntry i = s.mapEntry i := rfl

@[simp] theorem modWindow_launchSched (w : Fin 64) (f : Window → Window) (s : State) (i : Fin 4) :
    (modWindow w f s).launchSched i = s.launchSched i := rfl

@[simp] theorem modWindow_link (w : Fin 64) (f : Window → Window) (s : State) (i : Fin 4) :
    (modWindow w f s).link i = s.link i := rfl

@[simp] theorem modWindow_fenceCount (w : Fin 64) (f : Window → Window) (s : State) (i : Nat) :
    (modWindow w f s).fenceCount i = s.fenceCount i := rfl

/-! ### modLink -/

@[simp] theorem modLink_campaign (k : Fin 4) (f : Link → Link) (s : State) (i : Fin 8) :
    (modLink k f s).campaign i = s.campaign i := rfl

@[simp] theorem modLink_entry (k : Fin 4) (f : Link → Link) (s : State) (i : Fin 64) :
    (modLink k f s).entry i = s.entry i := rfl

@[simp] theorem modLink_mapEntry (k : Fin 4) (f : Link → Link) (s : State) (i : Nat) :
    (modLink k f s).mapEntry i = s.mapEntry i := rfl

@[simp] theorem modLink_launchSched (k : Fin 4) (f : Link → Link) (s : State) (i : Fin 4) :
    (modLink k f s).launchSched i = s.launchSched i := rfl

@[simp] theorem modLink_window (k : Fin 4) (f : Link → Link) (s : State) (i : Fin 64) :
    (modLink k f s).window i = s.window i := rfl

@[simp] theorem modLink_fenceCount (k : Fin 4) (f : Link → Link) (s : State) (i : Nat) :
    (modLink k f s).fenceCount i = s.fenceCount i := rfl

/-! ### modReader -/

@[simp] theorem modReader_campaign (f : Reader → Reader) (s : State) (i : Fin 8) :
    (modReader f s).campaign i = s.campaign i := rfl

@[simp] theorem modReader_entry (f : Reader → Reader) (s : State) (i : Fin 64) :
    (modReader f s).entry i = s.entry i := rfl

@[simp] theorem modReader_mapEntry (f : Reader → Reader) (s : State) (i : Nat) :
    (modReader f s).mapEntry i = s.mapEntry i := rfl

@[simp] theorem modReader_launchSched (f : Reader → Reader) (s : State) (i : Fin 4) :
    (modReader f s).launchSched i = s.launchSched i := rfl

@[simp] theorem modReader_window (f : Reader → Reader) (s : State) (i : Fin 64) :
    (modReader f s).window i = s.window i := rfl

@[simp] theorem modReader_link (f : Reader → Reader) (s : State) (i : Fin 4) :
    (modReader f s).link i = s.link i := rfl

@[simp] theorem modReader_fenceCount (f : Reader → Reader) (s : State) (i : Nat) :
    (modReader f s).fenceCount i = s.fenceCount i := rfl

/-! ### modJournal -/

@[simp] theorem modJournal_campaign (f : Journal → Journal) (s : State) (i : Fin 8) :
    (modJournal f s).campaign i = s.campaign i := rfl

@[simp] theorem modJournal_entry (f : Journal → Journal) (s : State) (i : Fin 64) :
    (modJournal f s).entry i = s.entry i := rfl

@[simp] theorem modJournal_mapEntry (f : Journal → Journal) (s : State) (i : Nat) :
    (modJournal f s).mapEntry i = s.mapEntry i := rfl

@[simp] theorem modJournal_launchSched (f : Journal → Journal) (s : State) (i : Fin 4) :
    (modJournal f s).launchSched i = s.launchSched i := rfl

@[simp] theorem modJournal_window (f : Journal → Journal) (s : State) (i : Fin 64) :
    (modJournal f s).window i = s.window i := rfl

@[simp] theorem modJournal_link (f : Journal → Journal) (s : State) (i : Fin 4) :
    (modJournal f s).link i = s.link i := rfl

@[simp] theorem modJournal_fenceCount (f : Journal → Journal) (s : State) (i : Nat) :
    (modJournal f s).fenceCount i = s.fenceCount i := rfl

/-! ### The map entry, the fence and the first index that passes a test -/

theorem setMapEntry_mapEntry (c d : Nat) (e : MapEntry) (s : State) :
    (setMapEntry c e s).mapEntry d = if d = c then e else s.mapEntry d := by
  unfold setMapEntry State.mapEntry; split
  · rename_i h; subst h; simp
  · rename_i h; exact sparseGet_put_other _ _ _ _ _ h

theorem anyFenced_iff (s : State) (l : List Nat) : s.anyFenced l = true ↔ ∃ x ∈ l, 0 < s.fenceCount x := by
  simp [State.anyFenced]

/-- What a search finds passes the test, and everything before it fails it. -/
theorem pick_eq_some {α : Type} (p : α → Bool) (l : List α) (a : α) (h : pick p l = some a) :
    p a = true ∧ ∃ before after, l = before ++ a :: after ∧ ∀ b ∈ before, p b = false := by
  induction l with
  | nil => simp [pick] at h
  | cons x l ih =>
    simp only [pick] at h
    split at h
    · rename_i hx; cases h; exact ⟨hx, [], l, rfl, by simp⟩
    · rename_i hx
      obtain ⟨h1, before, after, rfl, h3⟩ := ih h
      refine ⟨h1, x :: before, after, rfl, fun b hb => ?_⟩
      rcases List.mem_cons.1 hb with rfl | hb
      · simpa using hx
      · exact h3 b hb

theorem pick_eq_none {α : Type} (p : α → Bool) (l : List α) (h : pick p l = none) : ∀ b ∈ l, p b = false := by
  induction l with
  | nil => simp
  | cons x l ih =>
    simp only [pick] at h
    split at h
    · cases h
    · rename_i hx; intro b hb
      rcases List.mem_cons.1 hb with rfl | hb
      · simpa using hx
      · exact ih h b hb

/-- In the list of a table's indices, those before an index are the lower ones. -/
theorem mem_before_iff_lt {n : Nat} (a : Fin n) (before after : List (Fin n)) (h : List.finRange n = before ++ a :: after) :
    ∀ b, b ∈ before ↔ b < a := by
  have hs : (List.finRange n).Pairwise (· < ·) := List.pairwise_lt_finRange n
  rw [h, List.pairwise_append] at hs
  refine fun b => ⟨fun hb => hs.2.2 b hb a (by simp), fun hb => ?_⟩
  have hm : b ∈ List.finRange n := List.mem_finRange b
  rw [h] at hm
  rcases List.mem_append.1 hm with h1 | h1
  · exact h1
  · rcases List.mem_cons.1 h1 with rfl | h2
    · exact absurd hb (lt_irrefl _)
    · exact absurd (lt_trans hb (List.rel_of_pairwise_cons hs.2.1 h2)) (lt_irrefl _)

/-- A search of a table's indices finds the lowest that passes the test. -/
theorem pick_finRange_iff {n : Nat} (p : Fin n → Bool) (a : Fin n) :
    pick p (List.finRange n) = some a ↔ p a = true ∧ ∀ b, b < a → p b = false := by
  constructor
  · intro h
    obtain ⟨h1, before, after, h2, h3⟩ := pick_eq_some _ _ _ h
    exact ⟨h1, fun b hb => h3 b ((mem_before_iff_lt a before after h2 b).2 hb)⟩
  · intro ⟨h1, h2⟩
    cases h : pick p (List.finRange n) with
    | none => have := pick_eq_none _ _ h a (List.mem_finRange a); rw [h1] at this; cases this
    | some c =>
      obtain ⟨k1, before, after, k2, k3⟩ := pick_eq_some _ _ _ h
      rcases lt_trichotomy c a with hc | hc | hc
      · rw [h2 c hc] at k1; cases k1
      · rw [hc]
      · have := k3 a ((mem_before_iff_lt c before after k2 a).2 hc); rw [h1] at this; cases this

/-- The lowest FREE entry (04 R73). -/
theorem freeEntry_iff (s : State) (e : Fin 64) :
    freeEntry s = some e ↔ (s.entry e).state = .free ∧ ∀ j, j < e → (s.entry j).state ≠ .free := by
  unfold freeEntry
  rw [pick_finRange_iff]
  simp

/-! ### Operations of the campaigns and the Custody Unit -/

/-- A circuit's claim or leave marks the action in flight on it, and touches nothing else (01 R11). -/
theorem disturb_eq (c : Nat) (s : State) :
    disturb c s = { s with custody := { s.custody with
      action := s.custody.action.map (fun a => { a with disturbed := a.disturbed || decide (a.req.circuit = c) }) } } := by
  unfold disturb
  cases h : s.custody.action with
  | none => simp only [Option.map_none]; rw [← h]
  | some a =>
    simp only []
    split
    · rename_i h'; simp [setAction, h']
    · rename_i h'; simp [h']; rw [← h]

/-- The Campaign Table is not used outside RUNNING and STOPPING: no outcome of a custody action changes anything (03 R69). -/
theorem stepOutcome_unused (i : Fin 8) (o : SelectOutcome) (s : State) (h : s.run ≠ .running) (h' : s.run ≠ .stopping) :
    stepOutcome i o s = s := by
  unfold stepOutcome
  exact if_neg (fun x => x.1.elim h h')

/-- The end of a selection step (03 R53 R54): the cursor advances; past the last circuit the campaign drains and its slot word is handed
over, else in RUNNING the next step asks for its custody action. -/
theorem endStep_cases (i : Fin 8) (s : State) :
    let c := s.campaign i
    let next := c.nextCursor s.params.circuitCount
    let t := endStep i s
    t = { s with ctrl := t.ctrl, custody := t.custody, master := t.master } ∧
    (∀ j, j ≠ i → t.campaign j = s.campaign j) ∧ t.ctrl.nextId = s.ctrl.nextId ∧ t.ctrl.offer = s.ctrl.offer ∧
    (∀ r, r ≠ .campaign → t.queue r = s.queue r) ∧ t.custody.map = s.custody.map ∧ t.custody.action = s.custody.action ∧
    (s.params.circuitCount ≤ next →
      t.campaign i = { c with cursor := next, state := .draining, step := .idle } ∧ t.custody = s.custody ∧
      t.queue .campaign = s.queue .campaign ++
        [⟨addrOf s.params.controlBlock (0x170 + 4 * i.val), some (slotWord (t.campaign i)), .plain⟩]) ∧
    (next < s.params.circuitCount → t.queue .campaign = s.queue .campaign ∧
      (s.run = .running → t.campaign i = { c with cursor := next, step := .custody } ∧
        t.custody = { s.custody with queue := s.custody.queue ++ [(s.eventNo, .select i c.id next true)] }) ∧
      (s.run ≠ .running → t.campaign i = { c with cursor := next, step := .idle } ∧ t.custody = s.custody)) := by
  intro c next t
  let moved := modCampaign i (fun c => { c with cursor := next, step := .idle }) s
  by_cases h : s.params.circuitCount ≤ next
  · have e : t = slotWordWrite i (modCampaign i (fun c => { c with state := .draining }) moved) := by
      show endStep i s = _; unfold endStep; simp only []; rw [if_pos h]
    rw [e]
    refine ⟨rfl, ?_, rfl, rfl, ?_, rfl, rfl, fun _ => ⟨?_, rfl, ?_⟩, fun h' => by omega⟩
    · intro j hj; simp [slotWordWrite, statusWrite, moved, hj]
    · intro r hr; simp [slotWordWrite, statusWrite, handWrite_queue_of, hr, moved]
    · simp [slotWordWrite, statusWrite, moved, c]
    · simp [slotWordWrite, statusWrite, handWrite_queue_of, moved]
  · by_cases hr : s.run = .running
    · have e : t = beginStep i moved := by
        show endStep i s = _; unfold endStep; simp only []; rw [if_neg h, if_pos hr]
      rw [e]
      refine ⟨rfl, ?_, rfl, rfl, ?_, rfl, rfl, fun h' => by omega, fun _ => ⟨by simp [beginStep, moved], fun _ => ⟨?_, ?_⟩,
        fun h' => absurd hr h'⟩⟩
      · intro j hj; simp [beginStep, moved, hj]
      · intro r _; simp [beginStep, moved]
      · simp [beginStep, moved, c]
      · simp [beginStep, moved, askCustody, Campaign.stepCircuit]
        revert h
        simp only [next, c, Campaign.nextCursor]
        cases (s.campaign i).spanSet <;> simp
    · have e : t = moved := by
        show endStep i s = _; unfold endStep; simp only []; rw [if_neg h, if_neg hr]
      rw [e]
      refine ⟨rfl, ?_, rfl, rfl, ?_, rfl, rfl, fun h' => by omega, fun _ => ⟨by simp [moved], fun h' => absurd h' hr,
        fun _ => ⟨?_, rfl⟩⟩⟩
      · intro j hj; simp [moved, hj]
      · intro r _; simp [moved]
      · simp [moved, c]

end Sys2Proof.Machine
end

