-- ==== Sys2Proof/Laws/JournalRing.lean ====
section
/-! SUPPORT. The journal's ring (08 R145) under the operations that change links or the FIFO, and under a whole event's service: only
a mark write, an entry written and a load move it. -/

namespace Sys2Proof.Machine

theorem foldl_ring {α : Type} (f : State → α → State) (h : ∀ t a, (f t a).surround.ring = t.surround.ring) (l : List α)
    (s : State) : (l.foldl f s).surround.ring = s.surround.ring := by
  induction l generalizing s with
  | nil => rfl
  | cons a l ih => simp [ih, h]

@[simp] theorem links_ring (s : State) (x : Vector Link 4) : ({ s with links := x } : State).surround.ring = s.surround.ring := rfl

@[simp] theorem fifo_ring (s : State) (x : List Echo) : ({ s with fifo := x } : State).surround.ring = s.surround.ring := rfl

@[simp] theorem modLink_ring (k : Fin 4) (f : Link → Link) (s : State) : (modLink k f s).surround.ring = s.surround.ring := rfl

@[simp] theorem modCounters_ring (k : Fin 4) (f : LinkCounters → LinkCounters) (s : State) :
    (modCounters k f s).surround.ring = s.surround.ring := rfl

@[simp] theorem commitFrame_ring (k : Fin 4) (frame : List Byte) (s : State) :
    (commitFrame k frame s).surround.ring = s.surround.ring := rfl

@[simp] theorem launch_ring (k : Fin 4) (p : PickResult) (i : Fin 64) (s : State) :
    (launch k p i s).surround.ring = s.surround.ring := by
  simp [launch]

@[simp] theorem takeEcho_ring (e : Echo) (rest : List Echo) (s : State) :
    (takeEcho e rest s).surround.ring = s.surround.ring := by
  simp only [takeEcho]
  split <;> simp

@[simp] theorem takeOne_ring (s : State) : (takeOne s).surround.ring = s.surround.ring := by
  simp only [takeOne]
  (repeat' split) <;> simp

@[simp] theorem takeLoop_ring (n : Nat) (s : State) : (takeLoop n s).surround.ring = s.surround.ring := by
  induction n generalizing s with
  | zero => rfl
  | succ n ih => simp only [takeLoop]; split <;> simp [ih]

@[simp] theorem serveComparator_ring (s : State) : (serveComparator s).surround.ring = s.surround.ring := by
  simp [serveComparator]

@[simp] theorem launchOne_ring (k : Fin 4) (p : PickResult) (i : Fin 64) (s : State) :
    (launchOne k p i s).surround.ring = s.surround.ring := by
  simp only [launchOne]
  split <;> simp

@[simp] theorem launchLoop_ring (k : Fin 4) (n : Nat) (s : State) : (launchLoop k n s).surround.ring = s.surround.ring := by
  induction n generalizing s with
  | zero => rfl
  | succ n ih => simp only [launchLoop]; (repeat' split) <;> simp [ih]

@[simp] theorem serveLaunches_ring (s : State) : (serveLaunches s).surround.ring = s.surround.ring :=
  foldl_ring _ (fun t k => launchLoop_ring k 128 t) _ s

@[simp] theorem settle_surround_ring (s : State) : (settle s).surround.ring = s.surround.ring := by
  simp only [settle, issue_surround, surround_eventNo]
  simp

/-- A whole event's service leaves the journal's write offset, read mark and sequence counter as they stand. -/
theorem settle_ring (s : State) : (settle s).journal.ring = s.journal.ring := settle_surround_ring s

end Sys2Proof.Machine
end

