-- ==== Sys2Proof/Laws/JournalSound.lean ====
section
/-! SUPPORT. The journal under every operation of the blocks: the few that offer, take, place, write or abandon an entry keep it sound
(08 R145 to R149), and the others leave it as it stands. -/

namespace Sys2Proof.Machine

@[simp] theorem foldl_journal {α : Type} (f : State → α → State) (h : ∀ t a, (f t a).journal = t.journal) (l : List α) (s : State) :
    (l.foldl f s).journal = s.journal := by
  induction l generalizing s with
  | nil => rfl
  | cons a l ih => simp [ih, h]

@[simp] theorem issue_journal (s : State) : (issue s).journal = s.journal := by
  simp only [issue]
  (repeat' split) <;> simp

@[simp] theorem orphan_journal (p : Tag → Bool) (s : State) : (orphan p s).journal = s.journal := by
  simp [orphan]

@[simp] theorem statusWrite_journal (r : Requester) (offset : Nat) (data : Word) (s : State) : (statusWrite r offset data s).journal = s.journal := by
  simp [statusWrite]

@[simp] theorem runStateWrite_journal (r : RunState) (tag : Tag) (s : State) : (runStateWrite r tag s).journal = s.journal := by
  simp [runStateWrite]

@[simp] theorem linkStateWrite_journal (k : Fin 4) (s : State) : (linkStateWrite k s).journal = s.journal := by
  simp [linkStateWrite]

@[simp] theorem linkStateReport_journal (k : Fin 4) (s : State) : (linkStateReport k s).journal = s.journal := by
  simp only [linkStateReport]
  (repeat' split) <;> simp

@[simp] theorem linkCountersWrite_journal (k : Fin 4) (s : State) : (linkCountersWrite k s).journal = s.journal := by
  simp [linkCountersWrite]

@[simp] theorem linkStatusWrite_journal (k : Fin 4) (s : State) : (linkStatusWrite k s).journal = s.journal := by
  simp [linkStatusWrite]

@[simp] theorem slotWordWrite_journal (i : Fin 8) (s : State) : (slotWordWrite i s).journal = s.journal := by
  simp [slotWordWrite]

@[simp] theorem slotWordsWrite_journal (s : State) : (slotWordsWrite s).journal = s.journal := by
  simp [slotWordsWrite]

@[simp] theorem engineWordWrite_journal (circuit : Nat) (tag : Tag) (s : State) : (engineWordWrite circuit tag s).journal = s.journal := by
  simp [engineWordWrite]

@[simp] theorem disturb_journal (circuit : Nat) (s : State) : (disturb circuit s).journal = s.journal := by
  simp only [disturb]
  (repeat' split) <;> simp

@[simp] theorem leave_journal (circuit : Nat) (base : EngineState) (s : State) : (leave circuit base s).journal = s.journal := by
  simp [leave]

@[simp] theorem closeOwner_journal (i : Fin 8) (f : Counts → Counts) (s : State) : (closeOwner i f s).journal = s.journal := by
  simp [closeOwner]

@[simp] theorem closeJoiner_journal (f : Counts → Counts) (s : State) (i : Fin 8) : (closeJoiner f s i).journal = s.journal := by
  simp [closeJoiner]

@[simp] theorem closeInterests_journal (e : Entry) (f : Counts → Counts) (s : State) : (closeInterests e f s).journal = s.journal := by
  simp [closeInterests]

@[simp] theorem beginStep_journal (i : Fin 8) (s : State) : (beginStep i s).journal = s.journal := by
  simp [beginStep]

@[simp] theorem endStep_journal (i : Fin 8) (s : State) : (endStep i s).journal = s.journal := by
  simp only [endStep]
  (repeat' split) <;> simp

@[simp] theorem restartStep_journal (i : Fin 8) (s : State) : (restartStep i s).journal = s.journal := by
  simp only [restartStep]
  (repeat' split) <;> simp

@[simp] theorem enqueue_journal (i : Fin 64) (k : Fin 4) (s : State) : (enqueue i k s).journal = s.journal := by
  simp [enqueue]

@[simp] theorem dequeue_journal (i : Fin 64) (s : State) : (dequeue i s).journal = s.journal := by
  simp [dequeue]

@[simp] theorem dequeueIfQueued_journal (i : Fin 64) (s : State) : (dequeueIfQueued i s).journal = s.journal := by
  simp only [dequeueIfQueued]
  (repeat' split) <;> simp

@[simp] theorem conclude_journal (i : Fin 64) (c : Conclusion) (s : State) : (conclude i c s).journal = s.journal := by
  simp [conclude]

@[simp] theorem allocate_journal (slot : Fin 8) (sel : Selected) (r : Reach) (i : Fin 64) (s : State) : (allocate slot sel r i s).journal = s.journal := by
  simp only [allocate]
  (repeat' split) <;> simp

@[simp] theorem freeOne_journal (i : Fin 64) (s : State) : (freeOne i s).journal = s.journal := by
  simp [freeOne]

@[simp] theorem releaseEntry_journal (i : Fin 64) (s : State) : (releaseEntry i s).journal = s.journal := by
  simp [releaseEntry]

@[simp] theorem withdraw_journal (i : Fin 64) (s : State) : (withdraw i s).journal = s.journal := by
  simp [withdraw]

@[simp] theorem withdrawSpans_journal (spans : List Nat) (s : State) : (withdrawSpans spans s).journal = s.journal :=
  foldl_journal _ (fun t i => by split <;> simp) _ s

@[simp] theorem entryLinkDown_journal (k : Fin 4) (s : State) (i : Fin 64) : (entryLinkDown k s i).journal = s.journal := by
  simp only [entryLinkDown]
  (repeat' split) <;> simp

@[simp] theorem linkWentDown_journal (k : Fin 4) (s : State) : (linkWentDown k s).journal = s.journal := by
  simp [linkWentDown]

@[simp] theorem entryLinkUp_journal (j : Fin 4) (k : Fin 4) (s : State) (i : Fin 64) : (entryLinkUp j k s i).journal = s.journal := by
  simp only [entryLinkUp]
  (repeat' split) <;> simp

@[simp] theorem moveFrom_journal (k : Fin 4) (s : State) (j : Fin 4) : (moveFrom k s j).journal = s.journal := by
  simp only [moveFrom]
  (repeat' split) <;> simp

@[simp] theorem linkBecameUp_journal (k : Fin 4) (s : State) : (linkBecameUp k s).journal = s.journal := by
  simp [linkBecameUp]

@[simp] theorem timeoutEntry_journal (i : Fin 64) (s : State) : (timeoutEntry i s).journal = s.journal := by
  simp only [timeoutEntry]
  (repeat' split) <;> simp

@[simp] theorem backoffDone_journal (i : Fin 64) (s : State) : (backoffDone i s).journal = s.journal := by
  simp only [backoffDone]
  (repeat' split) <;> simp

@[simp] theorem raiseFence_journal (spans : List Nat) (s : State) : (raiseFence spans s).journal = s.journal := by
  simp [raiseFence]

@[simp] theorem lowerFence_journal (spans : List Nat) (s : State) : (lowerFence spans s).journal = s.journal := by
  simp [lowerFence]

@[simp] theorem markPhase_journal (w : Fin 64) (s : State) : (markPhase w s).journal = s.journal := by
  simp only [markPhase]
  (repeat' split) <;> simp

@[simp] theorem changeWindow_journal (w : Fin 64) (f : Window → Window) (s : State) : (changeWindow w f s).journal = s.journal := by
  simp [changeWindow]

@[simp] theorem phaseWordWrites_journal (w : Fin 64) (s : State) : (phaseWordWrites w s).journal = s.journal := by
  simp [phaseWordWrites]

@[simp] theorem flushPhaseWords_journal (s : State) : (flushPhaseWords s).journal = s.journal := by
  simp [flushPhaseWords]

@[simp] theorem toSettling_journal (w : Fin 64) (s : State) : (toSettling w s).journal = s.journal := by
  simp [toSettling]

@[simp] theorem settleCheck_journal (w : Fin 64) (s : State) : (settleCheck w s).journal = s.journal := by
  simp only [settleCheck]
  (repeat' split) <;> simp

@[simp] theorem openCheck_journal (w : Fin 64) (s : State) : (openCheck w s).journal = s.journal := by
  simp only [openCheck]
  (repeat' split) <;> simp

@[simp] theorem evalWindow_journal (w : Fin 64) (s : State) : (evalWindow w s).journal = s.journal := by
  simp [evalWindow]

@[simp] theorem evalWindows_journal (s : State) : (evalWindows s).journal = s.journal := by
  simp only [evalWindows]
  (repeat' split) <;> simp

@[simp] theorem refreshIdle_journal (w : Fin 64) (ws : List Word) (s : State) : (refreshIdle w ws s).journal = s.journal := by
  simp only [refreshIdle]
  (repeat' split) <;> simp

@[simp] theorem refreshPending_journal (w : Fin 64) (ws : List Word) (s : State) : (refreshPending w ws s).journal = s.journal := by
  simp only [refreshPending]
  (repeat' split) <;> simp

@[simp] theorem refreshOpen_journal (w : Fin 64) (arm : Arm) (close : Word) (s : State) : (refreshOpen w arm close s).journal = s.journal := by
  simp only [refreshOpen]
  (repeat' split) <;> simp

@[simp] theorem refreshFinished_journal (w : Fin 64) (arm : Arm) (s : State) : (refreshFinished w arm s).journal = s.journal := by
  simp only [refreshFinished]
  (repeat' split) <;> simp

@[simp] theorem applyRefresh_journal (r : Refresh) (s : State) : (applyRefresh r s).journal = s.journal := by
  simp only [applyRefresh]
  (repeat' split) <;> simp

@[simp] theorem loadWindow_journal (w : Fin 64) (ws : List Word) (s : State) : (loadWindow w ws s).journal = s.journal := by
  simp only [loadWindow]
  (repeat' split) <;> simp

@[simp] theorem createCampaign_journal (i : Fin 8) (origin : Origin) (cls : Class) (set : SpanSet) (s : State) : (createCampaign i origin cls set s).1.journal = s.journal := by
  simp only [createCampaign]
  (repeat' split) <;> simp

@[simp] theorem grant_journal (i : Fin 8) (w : Fin 64) (s : State) : (grant i w s).journal = s.journal := by
  simp [grant]

@[simp] theorem grantLoop_journal (n : Nat) (s : State) : (grantLoop n s).journal = s.journal := by
  induction n generalizing s with
  | zero => rfl
  | succ n ih => simp only [grantLoop]; split <;> simp [ih]

@[simp] theorem serveGrants_journal (s : State) : (serveGrants s).journal = s.journal := by
  simp only [serveGrants]
  (repeat' split) <;> simp

@[simp] theorem joinEntry_journal (i : Fin 8) (sel : Selected) (s : State) : (joinEntry i sel s).journal = s.journal := by
  simp only [joinEntry]
  (repeat' split) <;> simp

@[simp] theorem reachClaim_journal (i : Fin 8) (sel : Selected) (s : State) : (reachClaim i sel s).journal = s.journal := by
  simp [reachClaim]

@[simp] theorem spanTest_journal (i : Fin 8) (claimed : Bool) (sel : Selected) (s : State) : (spanTest i claimed sel s).journal = s.journal := by
  simp only [spanTest]
  (repeat' split) <;> simp

@[simp] theorem stepOutcome_journal (i : Fin 8) (o : SelectOutcome) (s : State) : (stepOutcome i o s).journal = s.journal := by
  simp only [stepOutcome]
  (repeat' split) <;> simp

@[simp] theorem reachRead_journal (i : Fin 8) (data : Word) (s : State) : (reachRead i data s).journal = s.journal := by
  simp only [reachRead]
  (repeat' split) <;> simp

@[simp] theorem makeClaim_journal (i : Fin 8) (sel : Selected) (r : Reach) (e : Fin 64) (s : State) : (makeClaim i sel r e s).journal = s.journal := by
  simp only [makeClaim]
  (repeat' split) <;> simp

@[simp] theorem claimLoop_journal (n : Nat) (s : State) : (claimLoop n s).journal = s.journal := by
  induction n generalizing s with
  | zero => rfl
  | succ n ih => simp only [claimLoop]; (repeat' split) <;> simp [ih]

@[simp] theorem serveClaims_journal (s : State) : (serveClaims s).journal = s.journal := by
  simp only [serveClaims]
  (repeat' split) <;> simp

@[simp] theorem abortOwned_journal (i : Fin 8) (s : State) (e : Fin 64) : (abortOwned i s e).journal = s.journal := by
  simp only [abortOwned]
  (repeat' split) <;> simp

@[simp] theorem abortJoined_journal (i : Fin 8) (s : State) (e : Fin 64) : (abortJoined i s e).journal = s.journal := by
  simp only [abortJoined]
  (repeat' split) <;> simp

@[simp] theorem abandonStep_journal (i : Fin 8) (s : State) : (abandonStep i s).journal = s.journal := by
  simp [abandonStep]

@[simp] theorem becomeAborting_journal (i : Fin 8) (s : State) : (becomeAborting i s).journal = s.journal := by
  simp [becomeAborting]

@[simp] theorem abortCampaign_journal (id : Nat) (s : State) : (abortCampaign id s).1.journal = s.journal := by
  simp only [abortCampaign]
  (repeat' split) <;> simp

@[simp] theorem finishWindow_journal (o : Origin) (aborted : Bool) (s : State) : (finishWindow o aborted s).journal = s.journal := by
  simp only [finishWindow]
  (repeat' split) <;> simp

@[simp] theorem summaryWritten_journal (i : Fin 8) (s : State) : (summaryWritten i s).journal = s.journal := by
  simp [summaryWritten]

@[simp] theorem toComparing_journal (i : Fin 64) (s : State) : (toComparing i s).journal = s.journal := by
  simp [toComparing]

@[simp] theorem holdItem_journal (item : Item) (s : State) : (holdItem item s).journal = s.journal := by
  simp [holdItem]

@[simp] theorem takeOutcome_journal (i : Fin 64) (rest : List (Fin 64)) (s : State) : (takeOutcome i rest s).journal = s.journal := by
  simp only [takeOutcome]
  (repeat' split) <;> simp

@[simp] theorem handCmpWrite_journal (s : State) : (handCmpWrite s).journal = s.journal := by
  simp only [handCmpWrite]
  (repeat' split) <;> simp

@[simp] theorem beginWriting_journal (r : CmpResult) (s : State) : (beginWriting r s).journal = s.journal := by
  simp only [beginWriting]
  (repeat' split) <;> simp

@[simp] theorem cmpWriteDone_journal (s : State) : (cmpWriteDone s).journal = s.journal := by
  simp [cmpWriteDone]

@[simp] theorem finishAlignment_journal (s : State) : (finishAlignment s).journal = s.journal := by
  simp only [finishAlignment]
  (repeat' split) <;> simp

@[simp] theorem cmpIdle_journal (s : State) : (cmpIdle s).journal = s.journal := by
  simp [cmpIdle]

@[simp] theorem verdictWritten_journal (s : State) : (verdictWritten s).journal = s.journal := by
  simp only [verdictWritten]
  (repeat' split) <;> simp

@[simp] theorem verdictAbandoned_journal (s : State) : (verdictAbandoned s).journal = s.journal := by
  simp [verdictAbandoned]

@[simp] theorem beginSweep_journal (s : State) : (beginSweep s).journal = s.journal := by
  simp [beginSweep]

@[simp] theorem trigger_journal (s : State) : (trigger s).journal = s.journal := by
  simp only [trigger]
  (repeat' split) <;> simp

@[simp] theorem endSweep_journal (s : State) : (endSweep s).journal = s.journal := by
  simp only [endSweep]
  (repeat' split) <;> simp

@[simp] theorem readControlWord_journal (s : State) : (readControlWord s).journal = s.journal := by
  simp [readControlWord]

@[simp] theorem beginScan_journal (s : State) : (beginScan s).journal = s.journal := by
  simp [beginScan]

@[simp] theorem startCampaign_journal (k : Nat) (cls : Class) (set : SpanSet) (s : State) : (startCampaign k cls set s).1.journal = s.journal := by
  simp only [startCampaign]
  (repeat' split) <;> simp

@[simp] theorem answerCircuit_journal (k : Nat) (cls : Class) (index : Nat) (s : State) : (answerCircuit k cls index s).1.journal = s.journal := by
  simp only [answerCircuit]
  (repeat' split) <;> simp

@[simp] theorem answerSpans_journal (k : Nat) (cls : Class) (args : List Word) (s : State) : (answerSpans k cls args s).1.journal = s.journal := by
  simp only [answerSpans]
  (repeat' split) <;> simp

@[simp] theorem answerAbort_journal (id : Nat) (s : State) : (answerAbort id s).1.journal = s.journal := by
  simp only [answerAbort]
  (repeat' split) <;> simp

@[simp] theorem answerRequest_journal (control : Word) (args : List Word) (s : State) : (answerRequest control args s).1.journal = s.journal := by
  simp only [answerRequest]
  (repeat' split) <;> simp

@[simp] theorem actOnRequest_journal (control : Word) (args : List Word) (s : State) : (actOnRequest control args s).journal = s.journal := by
  simp [actOnRequest]

@[simp] theorem nextArg_journal (control : Word) (got : List Word) (s : State) : (nextArg control got s).journal = s.journal := by
  simp only [nextArg]
  (repeat' split) <;> simp

@[simp] theorem controlRead_journal (data : Word) (s : State) : (controlRead data s).journal = s.journal := by
  simp only [controlRead]
  (repeat' split) <;> simp

@[simp] theorem argRead_journal (data : Word) (s : State) : (argRead data s).journal = s.journal := by
  simp only [argRead]
  (repeat' split) <;> simp

@[simp] theorem handbackDone_journal (s : State) : (handbackDone s).journal = s.journal := by
  simp only [handbackDone]
  (repeat' split) <;> simp

@[simp] theorem goOnWindows_journal (s : State) : (goOnWindows s).journal = s.journal := by
  simp only [goOnWindows]
  (repeat' split) <;> simp

@[simp] theorem beginWindows_journal (s : State) : (beginWindows s).journal = s.journal := by
  simp [beginWindows]

@[simp] theorem refreshRead_journal (data : Word) (s : State) : (refreshRead data s).journal = s.journal := by
  simp only [refreshRead]
  (repeat' split) <;> simp

@[simp] theorem sweepNext_journal (s : State) : (sweepNext s).journal = s.journal := by
  simp only [sweepNext]
  (repeat' split) <;> simp

@[simp] theorem poll_journal (s : State) : (poll s).journal = s.journal := by
  simp [poll]

@[simp] theorem epochRead_journal (data : Word) (s : State) : (epochRead data s).journal = s.journal := by
  simp only [epochRead]
  (repeat' split) <;> simp

@[simp] theorem beginAction_journal (req : CustodyReq) (s : State) : (beginAction req s).journal = s.journal := by
  simp [beginAction]

@[simp] theorem useFree_journal (s : State) : (useFree s).journal = s.journal := rfl

@[simp] theorem serveCustody_journal (s : State) : (serveCustody s).journal = s.journal := by
  simp only [serveCustody]
  (repeat' split) <;> simp

@[simp] theorem enterRunning_journal (s : State) : (enterRunning s).journal = s.journal := by
  simp only [enterRunning]
  (repeat' split) <;> simp

@[simp] theorem loadNext_journal (s : State) : (loadNext s).journal = s.journal := by
  simp only [loadNext]
  (repeat' split) <;> simp

@[simp] theorem endAction_journal (o : SelectOutcome) (s : State) : (endAction o s).journal = s.journal := by
  simp only [endAction]
  (repeat' split) <;> simp

@[simp] theorem recordWrites_journal (c : Nat) (l : List (Nat × Word)) (s : State) :
    (recordWrites c l s).journal = s.journal := by
  induction l generalizing s with
  | nil => rfl
  | cons x l ih => cases l <;> simp_all [recordWrites]

@[simp] theorem setPhase_journal (p : ActionPhase) (s : State) : (setPhase p s).journal = s.journal := by
  simp only [setPhase]
  (repeat' split) <;> simp

@[simp] theorem becomeState_journal (c : Nat) (e : EngineState) (s : State) : (becomeState c e s).journal = s.journal := by
  simp [becomeState]

@[simp] theorem accept_journal (c : Nat) (words : RecordWords) (isLoad : Bool) (o : SelectOutcome) (s : State) : (accept c words isLoad o s).journal = s.journal := by
  simp only [accept]
  (repeat' split) <;> simp

@[simp] theorem reject_journal (c : Nat) (words : RecordWords) (v : Verdict) (campaigns : List Nat) (o : SelectOutcome) (s : State) : (reject c words v campaigns o s).journal = s.journal := by
  simp [reject]

@[simp] theorem custodyEntryDone_journal (s : State) : (custodyEntryDone s).journal = s.journal := by
  simp only [custodyEntryDone]
  (repeat' split) <;> simp

@[simp] theorem beginRoute_journal (c : Nat) (words : RecordWords) (s : State) : (beginRoute c words s).journal = s.journal := by
  simp [beginRoute]

@[simp] theorem routeResult_journal (a : Action) (words : RecordWords) (w4 : Word) (route : Option Route) (s : State) : (routeResult a words w4 route s).journal = s.journal := by
  simp only [routeResult]
  (repeat' split) <;> simp

@[simp] theorem routeEnd_journal (a : Action) (words : RecordWords) (w4 : Word) (route : Option Route) (s : State) : (routeEnd a words w4 route s).journal = s.journal := by
  simp only [routeEnd]
  (repeat' split) <;> simp

@[simp] theorem routeRead_journal (data : Word) (s : State) : (routeRead data s).journal = s.journal := by
  simp only [routeRead]
  (repeat' split) <;> simp

@[simp] theorem afterHostAction_journal (a : Action) (words : RecordWords) (s : State) : (afterHostAction a words s).journal = s.journal := by
  simp only [afterHostAction]
  (repeat' split) <;> simp

@[simp] theorem compareRead_journal (i : Fin 64) (words : RecordWords) (s : State) : (compareRead i words s).journal = s.journal := by
  simp only [compareRead]
  (repeat' split) <;> simp

@[simp] theorem followHostAction_journal (a : Action) (words : RecordWords) (d : HostAction) (s : State) :
    (followHostAction a words d s).journal = s.journal := by
  simp only [followHostAction]
  (repeat' split) <;> simp

@[simp] theorem applyRecord_journal (a : Action) (words : RecordWords) (s : State) : (applyRecord a words s).journal = s.journal := by
  simp only [applyRecord]
  (repeat' split) <;> simp

@[simp] theorem recordDone_journal (a : Action) (words : RecordWords) (s : State) : (recordDone a words s).journal = s.journal := by
  simp only [recordDone]
  (repeat' split) <;> simp

@[simp] theorem recordRead_journal (data : Word) (s : State) : (recordRead data s).journal = s.journal := by
  simp only [recordRead]
  (repeat' split) <;> simp

@[simp] theorem journalWrites_journal (g : Tag) (o : Nat) (l : List Word) (s : State) :
    (journalWrites g o l s).journal = s.journal := by
  induction l generalizing o s with
  | nil => rfl
  | cons x l ih => cases l <;> simp_all [journalWrites]

@[simp] theorem toldWritten_journal (x0 : Source) (s : State) : (toldWritten x0 s).journal = s.journal := by
  simp only [toldWritten]
  (repeat' split) <;> simp

@[simp] theorem toldAbandoned_journal (x0 : Source) (s : State) : (toldAbandoned x0 s).journal = s.journal := by
  simp only [toldAbandoned]
  (repeat' split) <;> simp

@[simp] theorem readControlBlock_journal (k : Nat) (s : State) : (readControlBlock k s).journal = s.journal := by
  simp [readControlBlock]

@[simp] theorem beginCustodyStep_journal (s : State) : (beginCustodyStep s).journal = s.journal := by
  simp [beginCustodyStep]

@[simp] theorem goOnLoadWindows_journal (s : State) : (goOnLoadWindows s).journal = s.journal := by
  simp only [goOnLoadWindows]
  (repeat' split) <;> simp

@[simp] theorem beginWindowStep_journal (s : State) : (beginWindowStep s).journal = s.journal := by
  simp [beginWindowStep]

@[simp] theorem loadWindowRead_journal (data : Word) (s : State) : (loadWindowRead data s).journal = s.journal := by
  simp only [loadWindowRead]
  (repeat' split) <;> simp

@[simp] theorem dropSelection_journal (s : State) (r : CustodyReq) : (dropSelection s r).journal = s.journal := by
  simp only [dropSelection]
  (repeat' split) <;> simp

@[simp] theorem haltAction_journal (s : State) : (haltAction s).journal = s.journal := by
  simp only [haltAction]
  (repeat' split) <;> simp

@[simp] theorem haltQueue_journal (s : State) : (haltQueue s).journal = s.journal := by
  simp [haltQueue]

@[simp] theorem haltRefresh_journal (s : State) : (haltRefresh s).journal = s.journal := by
  simp [haltRefresh]

@[simp] theorem haltReader_journal (s : State) : (haltReader s).journal = s.journal := by
  simp [haltReader]

@[simp] theorem serveStop_journal (s : State) : (serveStop s).journal = s.journal := by
  simp only [serveStop]
  (repeat' split) <;> simp

@[simp] theorem stoppingEnds_journal (s : State) : (stoppingEnds s).journal = s.journal := by
  simp only [stoppingEnds]
  (repeat' split) <;> simp

/-! ### The queues of echoes and frames (05 R99 R104) -/

@[simp] theorem takeEcho_journal (e : Echo) (rest : List Echo) (s : State) : (takeEcho e rest s).journal = s.journal := by
  simp only [takeEcho]
  split <;> simp

@[simp] theorem takeOne_journal (s : State) : (takeOne s).journal = s.journal := by
  simp only [takeOne]
  (repeat' split) <;> simp

@[simp] theorem takeLoop_journal (n : Nat) (s : State) : (takeLoop n s).journal = s.journal := by
  induction n generalizing s with
  | zero => rfl
  | succ n ih => simp only [takeLoop]; split <;> simp [ih]

@[simp] theorem serveComparator_journal (s : State) : (serveComparator s).journal = s.journal := by
  simp [serveComparator]

@[simp] theorem launchOne_journal (k : Fin 4) (p : PickResult) (i : Fin 64) (s : State) :
    (launchOne k p i s).journal = s.journal := by
  simp only [launchOne]
  split <;> simp [launch, commitFrame]

@[simp] theorem launchLoop_journal (k : Fin 4) (n : Nat) (s : State) : (launchLoop k n s).journal = s.journal := by
  induction n generalizing s with
  | zero => rfl
  | succ n ih => simp only [launchLoop]; (repeat' split) <;> simp [ih]

@[simp] theorem serveLaunches_journal (s : State) : (serveLaunches s).journal = s.journal := by
  simp [serveLaunches]

@[simp] theorem monitorTo_journal (k : Fin 4) (st : LinkState) (timer : Option Nat) (s : State) :
    (monitorTo k st timer s).journal = s.journal := by
  simp [monitorTo]

@[simp] theorem signalLost_journal (k : Fin 4) (s : State) : (signalLost k s).journal = s.journal := by
  simp only [signalLost]
  (repeat' split) <;> simp

@[simp] theorem signalPresent_journal (k : Fin 4) (s : State) : (signalPresent k s).journal = s.journal := by
  simp only [signalPresent]
  (repeat' split) <;> simp

@[simp] theorem holdOffExpires_journal (k : Fin 4) (s : State) : (holdOffExpires k s).journal = s.journal := by
  simp only [holdOffExpires, reportChange]
  (repeat' split) <;> simp

@[simp] theorem receiveFrame_journal (k : Fin 4) (frame : List Byte) (s : State) : (receiveFrame k frame s).journal = s.journal := by
  simp only [receiveFrame]
  (repeat' split) <;> simp

@[simp] theorem countTimers_journal (s : State) : (countTimers s).journal = s.journal := by
  simp only [countTimers]
  split <;> rfl

@[simp] theorem startLink_journal (s : State) (k : Fin 4) : (startLink s k).journal = s.journal := by
  simp [startLink]

@[simp] theorem linkStep_journal (s : State) : (linkStep s).journal = s.journal := by
  simp [linkStep]

/-! ### Entries are of whole 8-byte units (08 R146, 11 R184) -/

theorem verdictEntry_even (v : VerdictFields) : (verdictEntry v).body.length % 2 = 0 := by
  have (l : List Finding) : (l.flatMap Finding.words).length = 2 * l.length := by
    induction l with
    | nil => rfl
    | cons f l ih => simp [List.flatMap_cons, Finding.words, ih]; omega
  simp [verdictEntry, this]
  omega

theorem summaryEntry_even (c : Campaign) (t : Word) : (summaryEntry c t).body.length % 2 = 0 := by
  simp [summaryEntry]

theorem bytes_even (e : JournalEntry) (h : e.body.length % 2 = 0) : e.bytes % 8 = 0 ∧ 8 ≤ e.bytes := by
  simp only [JournalEntry.bytes]
  omega

/-! ### Placement (08 R149) -/

/-- The write offset after a placed entry lies in the area at a multiple of 8. -/
theorem offsetAfter_sound (j : Journal) (n : Nat) (hg : j.geometry) (hn : n % 8 = 0) (hp : placement j n ≠ .stall) :
    offsetAfter j n (placement j n) < j.size ∧ offsetAfter j n (placement j n) % 8 = 0 := by
  obtain ⟨h1, h2, h3, h4, h5, h6⟩ := hg
  by_cases h : j.w + n ≤ j.size ∧ n ≤ j.free
  · simp only [placement, h, and_self, if_true, offsetAfter]
    refine ⟨Nat.mod_lt _ (by omega), ?_⟩
    rw [Nat.mod_mod_of_dvd _ (Nat.dvd_of_mod_eq_zero h1)]
    omega
  · by_cases h' : j.size < j.w + n ∧ (j.size - j.w) + n ≤ j.free
    · simp only [placement, h, h', and_self, if_true, if_false, offsetAfter]
      simp only [Journal.free] at h'
      omega
    · simp [placement, h, h'] at hp

/-- With no area no entry is placed. -/
theorem placement_noArea (j : Journal) (n : Nat) (hs : j.size = 0) (hn : 8 ≤ n) : placement j n = .stall := by
  simp only [placement, Journal.free, hs]
  split
  · omega
  · split
    · omega
    · rfl

/-! ### The operations that move entries -/

/-- Offers and the entry in hand may change as long as every entry is even; the ring and the next offset stand. -/
theorem sound_of (j j' : Journal) (h : j.sound) (hr : j'.ring = j.ring) (hn : j'.nextW = j.nextW)
    (hh : ∀ x, j'.hand = some x → x.2.body.length % 2 = 0) (ho : ∀ src e, j'.offer src = some e → e.body.length % 2 = 0) :
    j'.sound := by
  obtain ⟨-, hs, hw, hm, -⟩ : j'.base = j.base ∧ j'.size = j.size ∧ j'.w = j.w ∧ j'.m = j.m ∧ j'.seq = j.seq := by
    simp only [Journal.ring, Ring.mk.injEq] at hr
    exact hr
  refine ⟨?_, hh, ho⟩
  have := h.1
  simp only [Journal.geometry] at this ⊢
  rw [hs, hw, hm, hn]
  exact this

@[simp] theorem writeEntry_sound (e : JournalEntry) (s : State) (h : s.journal.sound) (he : e.body.length % 2 = 0)
    (hp : placement s.journal e.bytes ≠ .stall) : (writeEntry (placement s.journal e.bytes) e s).journal.sound := by
  have hb := bytes_even e he
  have key : ({ s.journal with phase := .writing, nextW := offsetAfter s.journal e.bytes (placement s.journal e.bytes) } :
      Journal).sound := by
    refine ⟨?_, h.2.1, h.2.2⟩
    rcases h.1 with h1 | h1
    · exact absurd (placement_noArea _ _ h1.1 hb.2) hp
    · exact .inr ⟨h1.1, offsetAfter_sound _ _ h1.1 hb.1 hp⟩
  simp only [writeEntry]
  split <;> rename_i heq <;> simp_all

@[simp] theorem abandonHand_sound (s : State) (h : s.journal.sound) : (abandonHand s).journal.sound := by
  simp only [abandonHand]
  split
  · rw [toldAbandoned_journal]
    exact sound_of s.journal _ h rfl rfl (by simp) h.2.2
  · exact h

@[simp] theorem noRoom_sound (s : State) (h : s.journal.sound) : (noRoom s).journal.sound := by
  simp only [noRoom]
  (repeat' split)
  · exact abandonHand_sound s h
  · exact h
  · exact sound_of s.journal _ h rfl rfl h.2.1 h.2.2

@[simp] theorem placeHand_sound (s : State) (h : s.journal.sound) : (placeHand s).journal.sound := by
  simp only [placeHand]
  split
  · rename_i src e he
    have := h.2.1 _ he
    split
    · exact noRoom_sound s h
    · rename_i hp
      exact writeEntry_sound e s h this hp
  · exact h

/-- A source's offer taken: the offers left and the hand are of whole units. -/
theorem taken_sound (j : Journal) (src : Source) (e : JournalEntry) (h : j.sound) (he : j.offer src = some e) :
    ({ j.clearOffer src with hand := some (src, e), served := src } : Journal).sound := by
  refine sound_of j _ h (by cases src <;> rfl) (by cases src <;> rfl) ?_ ?_
  · intro x hx
    simp only [Option.some.injEq] at hx
    subst hx
    exact h.2.2 _ _ he
  · intro x e' hx
    refine h.2.2 x e' ?_
    cases src <;> cases x <;> simp_all [Journal.offer, Journal.clearOffer]

@[simp] theorem takeEntry_sound (s : State) (h : s.journal.sound) : (takeEntry s).journal.sound := by
  simp only [takeEntry]
  split
  · split
    · rename_i src _ _ e he
      exact placeHand_sound _ (taken_sound s.journal src e h he)
    · exact h
  · exact h

@[simp] theorem serveJournalLoop_sound (n : Nat) (s : State) (h : s.journal.sound) : (serveJournalLoop n s).journal.sound := by
  induction n generalizing s with
  | zero => exact h
  | succ n ih =>
    simp only [serveJournalLoop]
    split
    · exact ih _ (takeEntry_sound s h)
    · exact h

@[simp] theorem serveJournal_sound (s : State) (h : s.journal.sound) : (serveJournal s).journal.sound :=
  serveJournalLoop_sound 3 s h

@[simp] theorem entryWritten_sound (s : State) (h : s.journal.sound) : (entryWritten s).journal.sound := by
  simp only [entryWritten]
  split
  · simp only [statusWrite_journal, toldWritten_journal, setEvent_journal, modJournal_journal]
    refine ⟨?_, by simp, h.2.2⟩
    rcases h.1 with ⟨h1, h2, h3, h4⟩ | ⟨⟨h1, h2, h3, h4, h5, h6⟩, h7, h8⟩
    · exact .inl ⟨h1, h4, h3, h4⟩
    · exact .inr ⟨⟨h1, h2, h7, h4, h8, h6⟩, h7, h8⟩
  · exact h

/-- The mark that a write leaves keeps the journal sound (08 R152). -/
theorem markAfter_sound (j : Journal) (value : Word) (h : j.sound) : ({ j with m := markAfter j value } : Journal).sound := by
  refine ⟨?_, h.2.1, h.2.2⟩
  rcases h.1 with ⟨h1, h2, h3, h4⟩ | ⟨⟨h1, h2, h3, h4, h5, h6⟩, h7, h8⟩
  · refine .inl ⟨h1, h2, ?_, h4⟩
    simp [markAfter, h1, h2]
  · refine .inr ⟨⟨h1, h2, h3, ?_, h5, ?_⟩, h7, h8⟩ <;> simp only [markAfter] <;> split <;> omega

@[simp] theorem markWrite_sound (value : Word) (s : State) (h : s.journal.sound) : (markWrite value s).journal.sound := by
  have := markAfter_sound s.journal value h
  simp only [markWrite]
  split
  · exact placeHand_sound _ this
  · exact this

@[simp] theorem serveSummaries_sound (s : State) (h : s.journal.sound) : (serveSummaries s).journal.sound := by
  simp only [serveSummaries]
  (repeat' split)
  · refine sound_of s.journal _ h rfl rfl h.2.1 ?_
    intro src e he
    cases src
    · exact h.2.2 .comparator e he
    · exact h.2.2 .custody e he
    · simp only [modJournal_journal, Journal.offer, Option.some.injEq] at he
      subst he
      exact summaryEntry_even _ _
  · exact h
  · exact h

@[simp] theorem engineWordDone_sound (s : State) (h : s.journal.sound) : (engineWordDone s).journal.sound := by
  simp only [engineWordDone]
  split
  · refine sound_of s.journal _ h rfl rfl h.2.1 ?_
    intro src e he
    cases src
    · simp only [modJournal_journal, Journal.offer, Option.some.injEq] at he
      subst he
      exact verdictEntry_even _
    · exact h.2.2 .custody e he
    · exact h.2.2 .campaign e he
  · exact h

@[simp] theorem actionWritten_sound (s : State) (h : s.journal.sound) : (actionWritten s).journal.sound := by
  simp only [actionWritten]
  (repeat' split) <;> try simpa using h
  refine sound_of s.journal _ h (by simp [modJournal]) (by simp) (by simpa using h.2.1) ?_
  intro src e he
  cases src
  · exact h.2.2 .comparator e (by simpa [Journal.offer] using he)
  · simp only [modJournal_journal, Journal.offer, Option.some.injEq] at he
    subst he
    exact verdictEntry_even _
  · exact h.2.2 .campaign e (by simpa [Journal.offer] using he)

@[simp] theorem haltJournal_sound (s : State) (h : s.journal.sound) : (haltJournal s).journal.sound := by
  simp only [haltJournal]
  split <;> simp [h]

@[simp] theorem haltLoadAction_sound (s : State) (h : s.journal.sound) : (haltLoadAction s).journal.sound := by
  simp only [haltLoadAction]
  (repeat' split) <;> try simpa using h
  refine sound_of s.journal _ h rfl rfl h.2.1 ?_
  intro src e he
  cases src
  · exact h.2.2 .comparator e he
  · simp [modJournal, Journal.offer, setAction] at he
  · exact h.2.2 .campaign e he

@[simp] theorem haltRequest_sound (s : State) (h : s.journal.sound) : (haltRequest s).journal.sound := by
  simp only [haltRequest, haltRunning, haltLoading]
  (repeat' split) <;> simp [h]

@[simp] theorem settle_sound (s : State) (h : s.journal.sound) : (settle s).journal.sound := by
  simp [settle, h]

/-! ### The load, the end of an access, faults and the hold -/

/-- A Control Block that passes the checks gives a journal of the geometry of R145 (10 R174). -/
theorem structuralFault_size (ws : List Word) (h : structuralFault ws = none) :
    1024 ≤ (cbWord ws 0x028).toNat ∧ (cbWord ws 0x028).toNat % 8 = 0 := by
  simp only [structuralFault] at h
  split at h
  · simp at h
  · split at h
    · simp at h
    · split at h
      · simp at h
      · split at h
        · simp at h
        · omega

theorem journalStep_sound (s : State) (h1 : 1024 ≤ s.params.journalSize) (h2 : s.params.journalSize % 8 = 0) :
    (journalStep s).journal.sound := by
  refine ⟨.inr ⟨⟨h2, h1, ?_, ?_, rfl, rfl⟩, ?_, rfl⟩, by simp [journalStep], ?_⟩
  · show 0 < s.params.journalSize; omega
  · show 0 < s.params.journalSize; omega
  · show 0 < s.params.journalSize; omega
  · intro src e he
    cases src <;> simp [journalStep, Journal.offer] at he

theorem loadSteps_sound (ws : List Word) (s : State) (h : structuralFault ws = none) : (loadSteps ws s).journal.sound := by
  simp only [loadSteps, beginWindowStep_journal, linkStep_journal]
  have key : ∀ u : State, u.params = { paramsOf ws with controlBlock := s.regs.blockBase } →
      (journalStep (clearingStep u)).journal.sound := by
    intro u hu
    have hp : (clearingStep u).params = { paramsOf ws with controlBlock := s.regs.blockBase } := by
      have hc := congrArg HostSide.params (clearingStep_host u)
      simp only [State.surround, State.hostSide] at hc
      rw [hc, hu]
    have hs := structuralFault_size ws h
    exact journalStep_sound _ (by rw [hp]; exact hs.1) (by rw [hp]; exact hs.2)
  exact key _ rfl

theorem controlBlockRead_sound (data : Word) (s : State) (h : s.journal.sound) : (controlBlockRead data s).journal.sound := by
  simp only [controlBlockRead, controlBlockDone]
  (repeat' split)
  · exact h
  · simpa using h
  · exact h
  · rename_i hf
    exact loadSteps_sound _ _ hf

theorem deliver_sound (g : Tag) (data : Word) (s : State) (h : s.journal.sound) : (deliver g data s).journal.sound := by
  cases g <;> simp [deliver, h, controlBlockRead_sound]

theorem busResponse_sound (data : Word) (s : State) (h : s.journal.sound) : (busResponse data s).journal.sound := by
  simp only [busResponse]
  split
  · exact settle_sound _ (deliver_sound _ _ _ h)
  · exact h

@[simp] theorem cutAccess_journal (s : State) : (cutAccess s).journal = s.journal := by
  simp only [cutAccess]
  (repeat' split) <;> rfl

@[simp] theorem faultAccess_journal (s : State) : (faultAccess s).journal = s.journal := by
  simp only [faultAccess, busFault]
  split <;> simp [dropQueues]

@[simp] theorem baseWrite_journal (value : Word) (s : State) : (baseWrite value s).journal = s.journal := by
  simp only [baseWrite, startLoad]
  (repeat' split) <;> simp [loadFault]

@[simp] theorem controlFields_journal (value : Word) (s : State) : (controlFields value s).journal = s.journal := by
  simp only [controlFields]
  split <;> rfl

theorem controlWrite_sound (value : Word) (s : State) (h : s.journal.sound) : (controlWrite value s).journal.sound := by
  simp only [controlWrite]
  (repeat' split) <;> simp [h]

@[simp] theorem secondTick_journal (s : State) : (secondTick s).journal = s.journal := by
  simp [secondTick]

theorem tick_sound (s : State) (h : s.journal.sound) : (tick s).journal.sound := by
  simp only [tick]
  split <;> simp [h]

end Sys2Proof.Machine
end

