-- ==== Sys2Proof/Laws/Services.lean ====
section
/-! SUPPORT. What each service that follows an event does, case by case: the end of a load action and of a sweep's, a window's
evaluation, the oldest custody request, the Journal Writer's take, the launches and the end of STOPPING. -/

namespace Sys2Proof.Machine

/-! ### The end of a load action (01 R22, 10 R176) -/

theorem loadNext_next (s : State) (hr : s.run = .loading) (hs : s.loader.step = .custody)
    (h : s.loader.index + 1 < s.params.circuitCount) :
    loadNext s = beginAction (.load (s.loader.index + 1)) (modLoader (fun l => { l with index := s.loader.index + 1 }) s) := by
  simp [loadNext, hr, hs, h]

theorem loadNext_last (s : State) (hr : s.run = .loading) (hs : s.loader.step = .custody)
    (h : s.params.circuitCount ≤ s.loader.index + 1) :
    loadNext s = enterRunning (statusWrite .request 0x108 s.clock.netTime s) := by
  simp [loadNext, hr, hs, Nat.not_lt.mpr h]

theorem loadNext_outside (s : State) (h : s.run ≠ .loading ∨ s.loader.step ≠ .custody) : loadNext s = s := by
  unfold loadNext
  rw [if_neg]
  rintro ⟨hr, hs⟩
  exact h.elim (· hr) (· hs)

/-! ### The end of a sweep action (01 R20, 09 R161) -/

theorem sweepNext_circuit (s : State) (hr : s.run = .running) (hs : s.reader.sweep = .custody)
    (h : s.reader.circuit + 1 < s.params.circuitCount) :
    sweepNext s = askCustody (.sweep (s.reader.circuit + 1)) (modReader (fun r => { r with circuit := s.reader.circuit + 1 }) s) := by
  simp [sweepNext, hr, hs, h]

theorem sweepNext_last (s : State) (hr : s.run = .running) (hs : s.reader.sweep = .custody)
    (h : s.params.circuitCount ≤ s.reader.circuit + 1) : sweepNext s = beginWindows s := by
  simp [sweepNext, hr, hs, Nat.not_lt.mpr h]

theorem sweepNext_outside (s : State) (h : s.run ≠ .running ∨ s.reader.sweep ≠ .custody) : sweepNext s = s := by
  unfold sweepNext
  rw [if_neg]
  rintro ⟨hr, hs⟩
  exact h.elim (· hr) (· hs)

/-- The refreshes to come, or the request scan. -/
theorem goOnWindows_refresh (s : State) (w : Fin 64) (k : RefreshKind) (h : nextRefresh s = some (w, k)) :
    goOnWindows s = handRead .window (windowAddr s w.val ((refreshOffsets k).getD 0 0)) .refresh
      (modReader (fun r => { r with window := w.val })
        { s with sched := { s.sched with refresh := some { window := w, kind := k } } }) := by
  simp [goOnWindows, h]

theorem goOnWindows_scan (s : State) (h : nextRefresh s = none) :
    goOnWindows s = beginScan { s with sched := { s.sched with refresh := none } } := by
  simp [goOnWindows, h]

/-! ### The evaluation of a window (02 R27 R28) -/

theorem settleCheck_waits (w : Fin 64) (s : State) (h : ¬ ((s.window w).phase = .settling ∧ (s.window w).expiry ≤ s.clock.netTime)) :
    settleCheck w s = s := by simp [settleCheck, h]

theorem openCheck_opens (w : Fin 64) (s : State) (hp : (s.window w).phase = .pending)
    (hc : s.clock.netTime < (s.window w).closeTime) (ho : (s.window w).openTime ≤ s.clock.netTime) :
    openCheck w s = raiseFence (s.window w).spans (changeWindow w (fun x => { x with phase := .opened }) s) := by
  simp [openCheck, hp, ho, BitVec.not_le.mpr hc]

theorem openCheck_settles (w : Fin 64) (s : State) (hp : (s.window w).phase = .pending)
    (hc : (s.window w).closeTime ≤ s.clock.netTime) :
    openCheck w s = raiseFence (s.window w).spans (toSettling w s) := by
  simp [openCheck, hp, hc]

theorem openCheck_closes (w : Fin 64) (s : State) (hp : (s.window w).phase = .opened)
    (hc : (s.window w).closeTime ≤ s.clock.netTime) : openCheck w s = toSettling w s := by
  simp [openCheck, hp, hc]

theorem openCheck_rests (w : Fin 64) (s : State) (h : (s.window w).phase ≠ .pending) (ho : (s.window w).phase ≠ .opened) :
    openCheck w s = s := by simp [openCheck, h, ho]

/-! ### Custody requests (01 R11) -/

/-- The unit is busy, the part serves no custody request, or none waits. -/
theorem serveCustody_idle (s : State)
    (h : s.custody.action ≠ none ∨ s.custody.queue = [] ∨ (s.run ≠ .running ∧ s.run ≠ .stopping)) : serveCustody s = s := by
  unfold serveCustody
  split
  · next g =>
    obtain h | h | h := h
    · exact absurd g.1 h
    · simp [h]
    · exact absurd g.2 (by simp [h])
  · rfl

/-- A request that came alone is begun, and the others wait. -/
theorem serveCustody_alone (s : State) (n : Nat) (r : CustodyReq) (rest : List (Nat × CustodyReq))
    (ha : s.custody.action = none) (hr : s.run = .running ∨ s.run = .stopping) (hq : s.custody.queue = (n, r) :: rest)
    (h : ∀ x ∈ rest.head?, x.1 ≠ n) :
    serveCustody s = beginAction r { s with custody := { s.custody with queue := rest } } := by
  have h1 : oldestRequests ((n, r) :: rest) = 1 := by
    cases rest with
    | nil => rfl
    | cons x xs => have := h x rfl; simp [oldestRequests, this]
  simp [serveCustody, ha, hr, hq, h1]

/-! ### Takes of the Journal Writer (08 R148) -/

theorem serveJournal_rests (s : State) (h : s.journal.phase ≠ .idle ∨ journalTakes s = false) : serveJournal s = s := by
  unfold serveJournal serveJournalLoop
  rw [if_neg]
  rintro ⟨hp, ht⟩
  obtain h | h := h
  · exact h hp
  · simp [h] at ht

/-- The first source in turn that offers an entry is served, and its entry is tested. -/
theorem takeEntry_first (s : State) (src : Source) (e : JournalEntry)
    (hp : pick (fun x => (s.journal.offer x).isSome) (sourcesAfter s.journal.served) = some src)
    (he : s.journal.offer src = some e) :
    takeEntry s = placeHand (modJournal (fun j => { j.clearOffer src with hand := some (src, e), served := src }) s) := by
  simp [takeEntry, hp, he]

/-! ### Launches (04 R76) -/

theorem launchLoop_launches (k : Fin 4) (n : Nat) (s : State) (p : PickResult) (i : Fin 64) (hr : launchReady k s = true)
    (hp : launchPick k s = some (p, i)) : launchLoop k (n + 1) s = launchLoop k n (launchOne k p i s) := by
  simp [launchLoop, hr, hp]

theorem launchLoop_rests (k : Fin 4) (n : Nat) (s : State) (h : launchReady k s = false ∨ launchPick k s = none) :
    launchLoop k n s = s := by
  cases n with
  | zero => rfl
  | succ n => obtain h | h := h <;> simp [launchLoop, h]

/-- The head of the queue picked is launched where none of its spans is fenced, and withdrawn where one is (02 R43). -/
theorem launchOne_free (k : Fin 4) (p : PickResult) (i : Fin 64) (s : State) (h : s.anyFenced (s.entry i).spans = false) :
    launchOne k p i s = launch k p i s := by simp [launchOne, h]

theorem launchOne_fenced (k : Fin 4) (p : PickResult) (i : Fin 64) (s : State) (h : s.anyFenced (s.entry i).spans = true) :
    launchOne k p i s = serveComparator (serveClaims (withdraw i s)) := by simp [launchOne, h]

/-! ### The end of STOPPING (10 R177) -/

theorem serveStop_waits (s : State) (h : stopComplete s = false) : serveStop s = s := by simp [serveStop, h]

theorem serveStop_hands (s : State) (h : stopComplete s = true) :
    serveStop s = runStateWrite .halted .haltedWrite (modLoader (fun l => { l with stopHanded := true }) s) := by
  simp [serveStop, h]

end Sys2Proof.Machine
end

