-- ==== Sys2Proof/WellFormed.lean ====
section
/-! DEFINITION. Which commands are events the part can meet. Indices are `Fin`, so only three checks are left. -/

namespace Sys2Proof

/-- The checks on a command's operands: a HALT is a CONTROL write with bit 8 set, a POLL_NOW one with bit 9 set (10 R168),
and a frame that completes has at least the byte at which it completes (05 R101). -/
def Instr.wellFormed : Instr → Bool
  | .halt value => value.getLsbD 8
  | .pollNow value => value.getLsbD 9
  | .frameReceived _ frame => !frame.isEmpty
  | .powerOn | .resetAssert | .resetRelease | .selectWrite _ | .irqEnWrite _ | .eventsWrite _ | .eventMaskWrite _
  | .blockBaseWrite _ | .journalMarkWrite _ | .netTimeWrite _ | .registerWriteIgnored _ | .controlBlockReadDone _
  | .loadWindowReadDone _ | .loadCustodyReadDone _ | .stoppingEnd _ | .busErrorResponse | .busTimeout
  | .memoryAccessDone _ | .secondEvent | .settleExpiry _ | .windowRefreshDone _ | .phaseWordWritten _ | .signalLost _
  | .signalPresent _ | .holdOffExpiry _ | .transmitFrameDone _ | .launchGapExpiry _ | .probeTimeout _ | .backoffExpiry _
  | .hostWordReadDone _ | .routeReadDone _ | .reachMapReadDone _ | .alignmentDone | .engineWordWritten _
  | .journalEntryWritten _ | .pollTimerExpiry | .epochReadDone _ | .requestControlReadDone _ | .verifyCircuit _
  | .verifySpans _ | .abort _ | .requestHandbackDone _ => true

end Sys2Proof
end

