-- ==== Sys2Proof/Tests/Slice0.lean ====
section
/-! SUPPORT. The model's own tests: ill-formed commands, worked examples of the spec, and, for each statement that has hypotheses, a
concrete state and operands that meet them. -/

namespace Sys2Proof.Tests

open Sys2Proof Sys2Proof.Machine

/-! ### WellFormed: an ill-formed term for each check -/

theorem test_halt_needs_bit8 : (Instr.halt 0x200).wellFormed = false ∧ (Instr.halt 0x100).wellFormed = true := by decide

theorem test_pollNow_needs_bit9 : (Instr.pollNow 0x100).wellFormed = false ∧ (Instr.pollNow 0x200).wellFormed = true := by decide

theorem test_frame_needs_a_byte :
    (Instr.frameReceived 0 []).wellFormed = false ∧ (Instr.frameReceived 0 [1]).wellFormed = true := by decide

theorem test_no_word_spells_a_command : decodeTableWord 32 0x100 = none ∧ State.reset.withFetchWord 32 0x100 = State.reset := by
  decide

/-! ### Small states -/

/-- The part after reset in a run state, with SELECT at an index. -/
def at_ (r : RunState) (index : BitVec 4) : State := { State.reset with regs := { runState := r, select := index } }

/-- An access of a tag on the bus: a read of address 64, or a write of a word there. -/
def withRead (tag : Tag) (s : State) : State := { s with master := { s.master with port := some (.loader, ⟨64, none, tag⟩) } }

def withWrite (tag : Tag) (s : State) : State :=
  { s with master := { s.master with port := some (.loader, ⟨64, some 0x01020304, tag⟩) } }

/-! ### Registers and loading (chapter 10) -/

/-- R168: ID, and CONTROL in RUNNING with IRQ_EN set. -/
theorem test_register_reads :
    readData (at_ .halted 0) = 0x4A840C01 ∧
    readData { (at_ .running 1) with regs := { runState := .running, select := 1, irqEn := true } } = 0x402 ∧
    readData { (at_ .running 1) with held := true } = 0 := by decide

/-- R174: a BLOCK_BASE that is no multiple of 64 is a load fault; a load faults on the first check of the table. -/
theorem test_load_faults :
    (baseWrite 0x12340020 (at_ .halted 4)).regs.faultCode = .baseAlign ∧
    structuralFault (List.replicate 34 0) = some (.circuitCount, 0x004) ∧
    structuralFault (List.replicate 34 1) = some (.journalSize, 0x028) ∧
    structuralFault (List.replicate 34 1024) = none := by decide

/-! ### Routes (01 R6 to R9, worked example of circuit 17; layout of 11 R183) -/

def hopWord (ingress egress node span spanLoss hopLoss : Nat) : RouteWord :=
  BitVec.ofNat 64 (1 + ingress * 2 ^ 2 + egress * 2 ^ 8 + node * 2 ^ 14 + span * 2 ^ 25 + spanLoss * 2 ^ 37 + hopLoss * 2 ^ 50)

def attrWord (cls stamping check channel : Nat) : RouteWord :=
  BitVec.ofNat 64 (2 + cls * 2 ^ 2 + stamping * 2 ^ 5 + check * 2 ^ 6 + channel * 2 ^ 8)

def circuit17Words (stamping303 : Nat) : List RouteWord :=
  [hopWord 1 4 12 210 620 0, attrWord 0 0 1 41, hopWord 0 0 30 211 480 150, attrWord 2 stamping303 1 41, hopWord 2 5 31 212 900 0,
   hopWord 3 7 44 4095 0 0, 3]

def circuit17 : Route :=
  { hops := [⟨12, 1, 4, 210, 620, 0, ⟨0, true, true, 41⟩⟩, ⟨30, 0, 0, 211, 480, 150, ⟨0, false, true, 41⟩⟩,
      ⟨31, 2, 5, 212, 900, 0, ⟨2, true, true, 41⟩⟩, ⟨44, 3, 7, 4095, 0, 0, ⟨2, true, true, 41⟩⟩] }

theorem test_circuit17_route :
    routeStatus (startAttr 0x08000000 0x29070000) 7 (circuit17Words 1) = .valid circuit17 ∧ circuit17.spanList = [210, 211, 212] ∧
    circuit17.expected.map (fun h => h.node) = [12, 31, 44] := by decide

theorem test_circuit17_needs_its_last_stamp :
    routeStatus (startAttr 0x08000000 0x29070000) 7 (circuit17Words 0) = .invalid ∧
    routeStatus (startAttr 0x08000000 0x29070000) 6 ((circuit17Words 1).take 6) = .invalid := by decide

/-! ### Windows (chapter 2) -/

/-- 2.8: the copy of window 4 skips 4095 and the second 210. -/
theorem test_window_spans :
    windowSpans [1, 1000, 1600, BitVec.ofNat 32 (120 + 5 * 2 ^ 24), BitVec.ofNat 32 (210 + 211 * 2 ^ 16),
      BitVec.ofNat 32 (305 + 4095 * 2 ^ 16), 210] = [210, 211, 305] := by decide

/-- One window of a running part, at a time. -/
def withWindow (w : Fin 64) (x : Window) (now : Word) : State :=
  { (at_ .running 0) with
    params := { windowCount := 16 }, clock := { netTime := now }, sched := { windows := vput (Vector.replicate 64 {}) w x } }

/-- 2.8: window 4 opens at 1000, and a jump to 2000 takes it straight to SETTLING with expiry 2120. -/
theorem test_window_times :
    ((evalWindow 4 (withWindow 4 { phase := .pending, openTime := 1000, closeTime := 1600, settle := 120 } 1000)).window 4).phase =
      .opened ∧
    ((evalWindow 4 (withWindow 4 { phase := .pending, openTime := 1000, closeTime := 1600, settle := 120 } 2000)).window 4).expiry =
      2120 := by decide +kernel

/-! ### Probes and launches (chapter 4) -/

/-- 4.12: the classes of the five launches under WEIGHTED 2 to 1. -/
theorem test_weighted_launches :
    let p : Params := { weighted := true, urgentWeight := 2, routineWeight := 1 }
    pickQueue p { urgent := [12, 14, 15], routine := [20, 21] } = some ⟨.urgent, .urgent, 1⟩ ∧
    pickQueue p { urgent := [15], routine := [20, 21], turn := .urgent, count := 2 } = some ⟨.routine, .routine, 1⟩ ∧
    pickQueue p { urgent := [15], routine := [21], turn := .routine, count := 1 } = some ⟨.urgent, .urgent, 1⟩ ∧
    pickQueue p { urgent := [], routine := [21], turn := .urgent, count := 1 } = some ⟨.routine, .routine, 1⟩ := by decide

/-- R79: one, two, four, eight and eight bases of backoff; 4.12: the first is 200 ms at base 20. -/
theorem test_backoff : [1, 2, 3, 4, 5].map (backoffMs 20) = [200, 400, 800, 1600, 1600] := by decide

/-! ### Links and frames (chapter 5, 11 R185) -/

/-- R185: the words 0x0100 0x0102 0x0304 0x0506 0x0708 0x0900 sum to 0x1A14, so the check word is 0xE5EB. -/
theorem test_probe_frame :
    probeFrame 0x0102 0x0304 0x0506 0x070809 = [1, 0, 1, 2, 3, 4, 5, 6, 7, 8, 9, 0, 0xE5, 0xEB] := by decide

/-- R102: an ECHO without stamps passes only with BREAK set. -/
theorem test_empty_echo :
    echoOk [2, 1, 0, 0, 0, 0, 0, 0, 0, 0, 0, 0, 0, 0, 0xFD, 0xFE] = true ∧
    echoOk [2, 0, 0, 0, 0, 0, 0, 0, 0, 0, 0, 0, 0, 0, 0xFD, 0xFF] = false := by decide

/-- A link enabled with hold-off 30 (300 ms). -/
def linked (l : Link) : State :=
  { (at_ .running 0) with
    params := { links := Vector.replicate 4 { enabled := true, holdOff := 30 } }, links := Vector.replicate 4 l }

/-- "A flapping link": UP fails for 300 ms, RESTORING falls to DOWN, DOWN restores for 300 ms. -/
theorem test_flapping_link :
    ((signalLost 2 (linked { started := true, signal := true, state := .up })).link 2).holdOff = some 300 ∧
    ((signalLost 2 (linked { started := true, signal := true, state := .restoring })).link 2).state = .down ∧
    ((signalPresent 2 (linked { started := true, state := .down })).link 2).state = .restoring := by decide

/-! ### Alignment (chapter 6: circuit 23) -/

def hop23 (node ingress egress : Nat) : Hop := ⟨node, ingress, egress, 0, 0, 0, ⟨0, true, false, 41⟩⟩

def expected23 : List Hop := [hop23 12 1 4, hop23 31 2 5, hop23 44 3 7, hop23 58 1 9]

def seen (node ingress egress : Nat) : Stamp := ⟨node, ingress, egress, 41, 0, 0⟩

def echo23 (brk overflow : Bool) (stamps : List Stamp) : Echo :=
  { tag := 0, trail := 0, brk := brk, overflow := overflow, breakNode := 44, breakReason := 3, stamps := stamps, link := 0 }

/-- "A swapped port": PORT at route 3, stamp 3, with ports 8 and 7. -/
theorem test_swapped_port :
    (align expected23 (echo23 false false [seen 12 1 4, seen 31 2 5, seen 44 8 7, seen 58 1 9])).findings =
      [⟨.port, 3, 3, 44, 8 + 256 * 7⟩] := by decide

/-- "A foreign detour" that bypassed N44: FOREIGN, then MISSING; crossed cords: MISSING, then LOOP. -/
theorem test_detours :
    (align expected23 (echo23 false false [seen 12 1 4, seen 31 2 5, seen 77 0 0, seen 58 1 9])).findings.map
      (fun f => (f.kind, f.routePos, f.stampPos, f.node)) = [(.foreign, 0, 3, 77), (.missing, 3, 0, 44)] ∧
    (align expected23 (echo23 false false [seen 12 1 4, seen 44 3 7, seen 31 2 5, seen 58 1 9])).findings.map
      (fun f => (f.kind, f.routePos, f.stampPos, f.node)) = [(.missing, 2, 0, 31), (.loop, 2, 3, 31)] := by decide

/-- "A break": BREAK at route 4 with reason 3, verdict BROKEN. -/
theorem test_break :
    (align expected23 (echo23 true false [seen 12 1 4, seen 31 2 5, seen 44 3 7])).findings = [⟨.brk, 4, 0, 44, 3⟩] ∧
    verdictOf [⟨.brk, 4, 0, 44, 3⟩] false = .broken := by decide

/-! ### Loss arithmetic (7.7 to 7.9) -/

def params17 : Params :=
  { driftLimit := 100, tolerance := vput (vput (Vector.replicate 8 {}) 2 { upper := 150, lower := 100 }) 4 { upper := 200, lower := 200 } }

def echo17 (tx1 rx2 tx2 rx3 : Int) : Echo :=
  { tag := 0, trail := 0, brk := false, overflow := false, breakNode := 0, breakReason := 0, link := 0
    stamps := [⟨12, 1, 4, 41, -32768, tx1⟩, ⟨31, 2, 5, 41, rx2, tx2⟩, ⟨44, 3, 7, 41, rx3, -32768⟩] }

/-- What a comparison gives: verdict, path loss, complete, worst deviation, baseline after. -/
def gives (c : CmpResult) : Verdict × Int × Bool × Int × Option Int := (c.verdict, c.loss, c.complete, c.worst, c.baselineAfter)

/-- 7.7: the three nights. -/
theorem test_three_nights :
    gives (compareEcho params17 circuit17 (echo17 150 (-1150) 100 (-820)) (some 2180)) = (.continuous, 2220, true, 50, some 2185) ∧
    gives (compareEcho params17 circuit17 (echo17 150 (-1170) 100 (-752)) (some 2185)) = (.continuous, 2172, true, 70, some 2184) ∧
    gives (compareEcho params17 circuit17 (echo17 150 (-1230) 100 (-850)) (some 2184)) = (.degraded, 2330, true, 130, some 2184) := by
  decide

/-- 7.8: an unknown power, and a clamped one. -/
theorem test_unknown_and_clamped :
    (compareEcho params17 circuit17 (echo17 150 (-1160) (-32768) (-830)) (some 2184)).findings = [⟨.unmeasured, 3, 3, 44, 1⟩] ∧
    gives (compareEcho params17 circuit17 (echo17 150 (-5000) (-32768) (-830)) (some 2184)) =
      (.degraded, 5150, false, 3900, some 2184) := by decide

/-- 7.9: circuit 140, a path loss that saturates at its fifth segment. -/
theorem test_saturated_path_loss :
    let hop := fun k : Nat => (⟨k, 0, 0, if k = 7 then 4095 else k, if k ≤ 5 then 5000 else 0, 0, ⟨4, true, true, 127⟩⟩ : Hop)
    let stamp := fun (k : Nat) (rx tx : Int) => (⟨k, 0, 0, 41, rx, tx⟩ : Stamp)
    let r : Route := { hops := [1, 2, 3, 4, 5, 6, 7].map hop }
    let e : Echo :=
      { tag := 0, trail := 0, brk := false, overflow := false, breakNode := 0, breakReason := 0, link := 0
        stamps := [stamp 1 (-32768) 2500, stamp 2 (-5000) 2500, stamp 3 (-5000) 2500, stamp 4 (-5000) 2500, stamp 5 (-5000) 2500,
          stamp 6 (-5000) (-3500), stamp 7 2500 (-32768)] }
    gives (compareEcho params17 r e none) = (.degraded, 26767, false, -6000, none) := by decide

/-! ### The journal (chapter 8: filling, wrapping and stalling) -/

def ring (w m : Nat) : Journal := { size := 1024, w := w, m := m }

theorem test_placements :
    placement (ring 0 0) 184 = .straight ∧ placement (ring 808 368) 184 = .straight ∧ placement (ring 992 368) 64 = .wrap ∧
    placement (ring 320 368) 56 = .stall ∧ placement (ring 320 552) 56 = .straight ∧
    [(ring 992 368).free, (ring 64 368).free, (ring 320 368).free] = [392, 296, 40] := by decide

/-- The marks 555 and 523 of the sequence. -/
theorem test_marks : markAfter (ring 320 368) 555 = 552 ∧ markAfter (ring 512 552) 523 = 512 := by decide

/-! ### Requests (chapter 9, 11 R183) -/

/-- R162: the hand-back keeps kind and class with owner HOST; R165: repeats are removed. -/
theorem test_request_words :
    handbackWord 0x00010201 = 0x00010200 ∧ resultWord .started 12 = 0x0C01 ∧ requestSpans [7, 9, 7] = [7, 9] := by decide

/-! ### Steps -/

/-- R158 in one step on an empty queue: a poll timer that has run out is a poll. -/
theorem test_poll_timer_runs_out :
    dueCommand { (at_ .running 0) with reader := { pollTimer := some 0 } } = some .pollTimerExpiry := by decide

/-- A held part's step on an empty queue leaves it as it stands. -/
theorem test_held_part_idles : step { State.reset with held := true } = .next { State.reset with held := true } := by rfl

/-! ### Witnesses: for each statement with hypotheses, states and operands that meet those of each clause -/

/-- The bytes at the edges of the word on the bus lie outside it; without a write on the bus every byte does. -/
theorem witness_outsidePort :
    (withWrite .plain State.reset).outsidePort 63 ∧ (withWrite .plain State.reset).outsidePort 68 ∧ State.reset.outsidePort 64 ∧
    (withWrite .plain State.reset).master.port = some (.loader, ⟨64, some 0x01020304, .plain⟩) := by
  refine ⟨?_, ?_, ?_, rfl⟩
  · intro r x w h hw
    cases h
    left; decide
  · intro r x w h hw
    cases h
    right; decide
  · intro r x w h
    cases h

theorem witness_RegisterReadsAndInterruptLine :
    { State.reset with held := true }.held = true ∧ (at_ .running 0).held = false ∧ (at_ .running 0).regs.select = 0 ∧
    (at_ .running 1).regs.select = 1 ∧ (at_ .running 2).regs.select = 2 ∧ (at_ .running 3).regs.select = 3 ∧
    (at_ .running 4).regs.select = 4 ∧ (at_ .running 5).regs.select = 5 ∧ (at_ .running 6).regs.select = 6 ∧
    (at_ .running 7).regs.select = 7 ∧ (at_ .running 8).regs.select = 8 ∧ 9 ≤ (at_ .running 9).regs.select.toNat ∧
    9 ≤ (at_ .running 15).regs.select.toNat := by decide

theorem witness_RegisterWritesActOnTheSelectedRegister :
    { State.reset with held := true }.held = true ∧ (at_ .running 0).held = false ∧ (at_ .running 0).regs.select.toNat ≠ 1 := by
  decide

theorem witness_RegisterWritesActOnTheSelectedRegister_values :
    (at_ .halted 2).held = false ∧ (at_ .halted 2).regs.select = 2 ∧ (at_ .halted 3).regs.select = 3 ∧
    (at_ .halted 1).regs.select = 1 ∧ (0x400 : Word).getLsbD 8 = false ∧ (0x400 : Word).getLsbD 9 = false := by decide

theorem witness_PollNowIsHeldOrTriggersASweep :
    (at_ .halted 1).held = false ∧ (at_ .halted 1).regs.select = 1 ∧ (0x200 : Word).getLsbD 9 = true ∧
    (0x200 : Word).getLsbD 8 = false ∧ (at_ .halted 1).run ≠ .running ∧ (at_ .running 1).run = .running ∧
    (at_ .running 1).reader.sweep = .idle ∧
    { at_ .running 1 with reader := { sweep := .requests } }.reader.sweep ≠ .idle := by decide

theorem witness_HaltRequestByRunState :
    (at_ .running 1).held = false ∧ (at_ .running 1).regs.select = 1 ∧ (0x300 : Word).getLsbD 8 = true := by decide

theorem witness_BlockBaseWriteStartsALoad :
    (at_ .running 4).held = false ∧ (at_ .running 4).regs.select = 4 ∧ (at_ .running 4).run ≠ .halted ∧
    (at_ .halted 4).run = .halted ∧ (0x1020 : Word).toNat % 64 ≠ 0 ∧ (0x1040 : Word).toNat % 64 = 0 := by decide

/-- Control Block words that pass every check but those a value is put in for: 1 circuit, pool 8, 1 slot, journal 1024 bytes. -/
def goodBlock (offset : Nat) (value : Word) : List Word :=
  controlBlockOffsets.map (fun o =>
    if o = offset then value else if o = 0x004 then 1 else if o = 0x00C then 8 else if o = 0x01C then 1
    else if o = 0x028 then 1024 else 0)

theorem witness_StructuralChecksDecideTheLoad :
    structuralFault (goodBlock 0x004 4097) = some (.circuitCount, 0x004) ∧ structuralFault (goodBlock 0x004 4096) = none ∧
    structuralFault (goodBlock 0x00C 0) = some (.poolSize, 0x00C) ∧ structuralFault (goodBlock 0x01C 0) = some (.slotCount, 0x01C) ∧
    structuralFault (goodBlock 0x028 1028) = some (.journalSize, 0x028) ∧ structuralFault (goodBlock 0x028 1048576) = none ∧
    structuralFault (goodBlock 0x024 4) = some (.tableAlign, 0x024) := by decide

/-- A load whose last Control Block word is on the bus. -/
def lastBlockWord (words : List Word) : State :=
  { (withRead .controlBlock (at_ .loading 0)) with loader := { step := .controlBlock, got := words.take 33 } }

theorem witness_StructuralChecksDecideTheLoad_fault :
    (lastBlockWord (goodBlock 0x004 0)).run = .loading ∧ (lastBlockWord (goodBlock 0x004 0)).readsWith .controlBlock ∧
    (lastBlockWord (goodBlock 0x004 0)).loader.got.length = 33 ∧
    structuralFault ((lastBlockWord (goodBlock 0x004 0)).loader.got ++ [0]) = some (.circuitCount, 0x004) :=
  ⟨rfl, ⟨_, _, rfl⟩, by decide, by decide⟩

theorem witness_LoadClearsAndStartsTheBlocks :
    (lastBlockWord (goodBlock 0x004 1)).run = .loading ∧ (lastBlockWord (goodBlock 0x004 1)).readsWith .controlBlock ∧
    (lastBlockWord (goodBlock 0x004 1)).loader.got.length = 33 ∧
    structuralFault ((lastBlockWord (goodBlock 0x004 1)).loader.got ++ [0]) = none :=
  ⟨rfl, ⟨_, _, rfl⟩, by decide, by decide⟩

/-- A custody action on circuit 3 whose last record word is on the bus, with record words of a host word and an engine word. -/
def lastRecordWord (req : CustodyReq) : State :=
  { (withRead .record (at_ .loading 0)) with custody := { action := some { req := req, phase := .reading [0, 0, 0, 0, 0] } } }

theorem witness_LoadTakesTheMapFromEngineWords :
    (lastRecordWord (.load 3)).readsWith .record ∧
    (lastRecordWord (.load 3)).custody.action = some { req := .load 3, phase := .reading [0, 0, 0, 0, 0] } ∧
    [(0 : Word), 0, 0, 0, 0].length = 5 := ⟨⟨_, _, rfl⟩, rfl, rfl⟩

theorem witness_ResponseChangesTheWrittenWordOnly :
    (withWrite .haltedWrite (at_ .stopping 0)).master.port = some (.loader, ⟨64, some 0x01020304, .haltedWrite⟩) ∧
    (withWrite .haltedWrite (at_ .stopping 0)).run = .stopping := ⟨rfl, rfl⟩

theorem witness_BusFaultStopsEveryBlock :
    State.reset.master.port = none ∧
    (withRead .plain State.reset).master.port = some (.loader, ⟨64, none, .plain⟩) := ⟨rfl, rfl⟩

/-- The Journal Writer's queue holds the one access waiting after the Loader was served. -/
def journalWaits : State := handRead .journal 64 .plain { (at_ .running 0) with master := { served := .loader } }

theorem witness_MasterServesRequestersInTurn :
    let before : List Requester := [.custody, .window, .campaign, .probe, .link 0, .link 1, .link 2, .link 3]
    journalWaits.held = false ∧ journalWaits.run ≠ .faulted ∧ journalWaits.master.port = none ∧
    journalWaits.queue .journal = [⟨64, none, .plain⟩] ∧
    turnOrder journalWaits.master.served = before ++ Requester.journal :: [Requester.request, .loader] ∧
    (∀ q ∈ before, journalWaits.queue q = []) ∧
    { State.reset with held := true }.held = true ∧ (at_ .faulted 0).run = .faulted := by decide

theorem witness_TimeEventsSetTheClock :
    (at_ .running 7).held = false ∧ (at_ .running 7).regs.select = 7 ∧ (at_ .halted 7).evaluates = false ∧
    (at_ .running 7).evaluates = true := by decide

/-- Windows at the boundaries of R27 and R28: now at the close time, one before it, at the open time, one before it. -/
theorem witness_EvaluationMovesAWindowByTime :
    let x : Window := { phase := .pending, openTime := 1000, closeTime := 1600 }
    let y : Window := { phase := .opened, openTime := 1000, closeTime := 1600 }
    x.phase = .pending ∧ x.closeTime ≤ (1600 : Word) ∧ (1599 : Word) < x.closeTime ∧ x.openTime ≤ (1000 : Word) ∧
    (999 : Word) < x.openTime ∧ y.phase = .opened ∧ y.closeTime ≤ (1600 : Word) ∧ (1599 : Word) < y.closeTime ∧
    ({ phase := .settling } : Window).phase = .settling ∧
    ({ phase := .finished } : Window).phase ≠ .pending := by decide

theorem witness_EvaluationMovesAWindowByTime_all : (16 : Fin 64).val ≥ (withWindow 4 {} 0).params.windowCount := by decide

theorem witness_SettleExpiryLowersAndOpeningRaises :
    let s := withWindow 4 { phase := .settling, expiry := 1820, spans := [210, 211, 305] } 1820
    s.evaluates = true ∧ (s.window 4).phase = .settling ∧ (s.window 4).expiry ≤ s.clock.netTime ∧ (s.window 4).spans.Nodup := by
  decide +kernel

/-- An entry that is WAITING with a span a raise fences. -/
def waitingEntry : State :=
  { (at_ .running 0) with
    probes := { entries := vput (Vector.replicate 64 {}) 9 { state := .waiting, spans := [210, 211, 212], attempts := 1, timer := some 0 } } }

theorem witness_SettleExpiryLowersAndOpeningRaises_raise :
    [210, 211, 305].Nodup ∧ waitingEntry.fenceCount 210 = 0 ∧ 210 ∈ (waitingEntry.entry 9).spans ∧
    (waitingEntry.entry 9).state.isOpen = true ∧ (waitingEntry.entry 0).state.isOpen = false := by decide

theorem witness_IdleRefreshArmsOrRejects :
    ((withWindow 4 {} 0).window 4).phase = .idle ∧ armOfWord 1 = .armed ∧ armOfWord 0 ≠ .armed ∧
    (copyWindow 300 [1, 1000, 1001] {}).openTime < (copyWindow 300 [1, 1000, 1001] {}).closeTime ∧
    (copyWindow 300 [1, 1000, 1000] {}).closeTime ≤ (copyWindow 300 [1, 1000, 1000] {}).openTime := by decide +kernel

theorem witness_PendingRefreshCancelsDisarmsOrMoves :
    ((withWindow 4 { phase := .pending } 0).window 4).phase = .pending ∧ armOfWord 2 = .cancel ∧ armOfWord 0 = .disarmed ∧
    armOfWord 1 = .armed := by decide +kernel

/-- The last word of a refresh of arm words only is on the bus. -/
def lastRefreshWord : State :=
  { (withRead .refresh (at_ .running 0)) with sched := { refresh := some { window := 4, kind := .armOnly } } }

theorem witness_RefreshEndsAndTheSweepGoesOn :
    lastRefreshWord.readsWith .refresh ∧ lastRefreshWord.sched.refresh = some { window := 4, kind := .armOnly } ∧
    ([] : List Word).length + 1 = (refreshOffsets .armOnly).length := ⟨⟨_, _, rfl⟩, rfl, by decide⟩

/-- Window entries at the boundaries of R45's table, for a load at 1000. -/
theorem witness_LoadWindowStepTakesTheEntry_table :
    let x := fun arm o c => copyWindow 300 [arm, o, c] {}
    (x 0 0 0).arm ≠ .armed ∧ (x 1 1000 1000).arm = .armed ∧ (x 1 1000 1000).closeTime ≤ (x 1 1000 1000).openTime ∧
    (1000 : Word) < (x 1 1001 1002).openTime ∧ (x 1 1000 1001).openTime ≤ (1000 : Word) ∧ (1000 : Word) < (x 1 1000 1001).closeTime ∧
    (x 1 999 1000).openTime < (x 1 999 1000).closeTime ∧ (x 1 999 1000).closeTime ≤ (1000 : Word) ∧
    phaseOfCode 6 = .finished ∧ phaseOfCode 4 = .queued ∧ phaseOfCode 5 = .verifying ∧ phaseOfCode 2 = .opened := by decide

/-- The last word of window 63's entry is on the bus in a load. -/
def lastWindowWord (count : Nat) : State :=
  { (withRead .loadWindow (at_ .loading 0)) with
    params := { windowCount := count }, loader := { step := .windows, index := 3, got := List.replicate 21 0 } }

theorem witness_LoadWindowStepTakesTheEntry :
    (lastWindowWord 5).run = .loading ∧ (lastWindowWord 5).loader.index < 64 ∧ (lastWindowWord 5).readsWith .loadWindow ∧
    (lastWindowWord 5).loader.got.length = 21 ∧
    (lastWindowWord 5).loader.index + 1 < (lastWindowWord 5).params.windowCount ∧
    (lastWindowWord 4).params.windowCount ≤ (lastWindowWord 4).loader.index + 1 :=
  ⟨rfl, by decide, ⟨_, _, rfl⟩, rfl, by decide, by decide⟩

theorem witness_PhaseWordWrittenSetsWindowChange :
    (withWrite .phaseWord (at_ .halted 0)).master.port = some (.loader, ⟨64, some 0x01020304, .phaseWord⟩) := rfl

theorem witness_LinkMonitorFollowsItsSignal :
    let failing := linked { started := true, state := .failing, holdOff := some 0 }
    let up := linked { started := true, state := .up, signal := true }
    failing.held = false ∧ monitorActs failing 2 = true ∧ (failing.link 2).signal = false ∧ (failing.link 2).state = .failing ∧
    (failing.link 2).holdOff.isSome = true ∧ monitorActs up 2 = true ∧ (up.link 2).signal = true := by decide

theorem witness_LinkMonitorFollowsItsSignal_idle :
    let lost := linked { started := false }
    let present := linked { started := false, signal := true }
    lost.held = false ∧ monitorActs lost 2 = false ∧ (lost.link 2).signal = false ∧ monitorActs present 2 = false ∧
    (present.link 2).signal = true := by decide

theorem witness_FramesSentAndReceived_sent :
    ((linked { txQueue := [[1], [2]] }).link 2).txQueue = [1] :: [[2]] ∧ ((linked {}).link 2).txQueue = [] := by decide

/-- The frame of BREAK without stamps passes; its first byte alone fails; the FIFO stands at 15 items and at 16. -/
theorem witness_FramesSentAndReceived :
    let frame : List Byte := [2, 1, 0, 0, 0, 0, 0, 0, 0, 0, 0, 0, 0, 0, 0xFD, 0xFE]
    let s := linked { state := .up }
    s.run = .running ∧ (s.link 2).state = .up ∧ echoOk frame = true ∧ echoOk [2] = false ∧
    ({ s with fifo := List.replicate 15 (echoItem 0 frame) } : State).fifo.length < 16 ∧
    16 ≤ ({ s with fifo := List.replicate 16 (echoItem 0 frame) } : State).fifo.length ∧ (at_ .halted 0).run ≠ .running := by
  decide

theorem witness_FramesPassTheFrameCheck :
    1023 < 65536 ∧ 65535 < 65536 ∧ 0 < 65536 ∧ 16777215 < 16777216 := by decide

/-- Entries at the boundary of their retries: attempts 1 and 2 with retries 1. -/
def probing (st : EntryState) (attempts : Nat) : State :=
  { (at_ .running 0) with
    params := { retries := 1, links := Vector.replicate 4 { linkage := .bind } }
    probes := { entries := vput (Vector.replicate 64 {}) 9 { state := st, attempts := attempts, timer := some 0 } } }

theorem witness_ProbeTimersRunOut :
    (probing .waiting 1).run = .running ∧ ((probing .waiting 1).entry 9).timer.isSome = true ∧
    ((probing .waiting 1).entry 9).state = .waiting ∧ ((probing .waiting 1).entry 9).attempts < 1 + 1 ∧
    1 + (probing .waiting 2).params.retries ≤ ((probing .waiting 2).entry 9).attempts ∧
    ((probing .backoff 1).entry 9).state = .backoff ∧ chooseLink (probing .backoff 1) {} = none ∧
    chooseLink (linked {}) {} = some 0 := by decide

theorem witness_LinkAndQueueChoice :
    let r : Reach := { primary := 0, alternate := 1, altValid := true }
    let up := linked { state := .up }
    let down := linked {}
    (up.link r.primary).state = .up ∧ (up.linkParams r.primary).linkage = .reroute ∧ ¬ (down.link r.primary).state = .up ∧
    r.altValid = true ∧ (up.link r.alternate).state = .up ∧ ¬ (down.link r.alternate).state = .up ∧
    ¬ ((probing .backoff 1).linkParams r.primary).linkage = .reroute := by decide

/-- Entry 12 is queued urgent on link 0, with a launch gap running out. -/
def queued12 : State :=
  { linked { state := .up } with
    probes := { scheds := vput (Vector.replicate 4 {}) 0 { urgent := [12], gap := some 0 } } }

theorem witness_LaunchCommitsTheProbe_gap : queued12.run = .running ∧ (queued12.launchSched 0).gap.isSome = true := by decide

theorem witness_LaunchCommitsTheProbe : launchPick 0 queued12 = some (⟨.urgent, .urgent, 0⟩, 12) := by decide

/-- Span 210 is fenced, and entry 9 holds it; a launch gap is running on link 0 of `queued12`. -/
theorem witness_NoFrameForAFencedSpan :
    let s := setFence [(210, 1)] waitingEntry
    s.anyFenced (s.entry 9).spans = true ∧ ¬ (queued12.launchSched 0).gap = none := by decide

def selected3 : Selected := { circuit := 3, trail := 5, head := 12, spans := [210], revision := 1 }

/-- Campaign slot 2 waits for its Reach Map read, which is on the bus. -/
def reaching : State :=
  { (withRead (.reach 2) (at_ .running 0)) with
    ctrl := { slots := vput (Vector.replicate 8 {}) 2 { id := 4, state := .selecting, step := .reach selected3 } } }

theorem witness_ReachMapReadGivesTheReach :
    reaching.readsWith (.reach 2) ∧ (reaching.campaign 2).step = .reach selected3 := ⟨⟨_, _, rfl⟩, by decide⟩

theorem witness_HostWordActionFollowsTheTable :
    (lastRecordWord (.sweep 3)).readsWith .record ∧
    (lastRecordWord (.sweep 3)).custody.action =
      some { req := .sweep 3, disturbed := false, phase := .reading [0, 0, 0, 0, 0] } ∧
    [(0 : Word), 0, 0, 0, 0].length = 5 ∧ hostRequest 0 = .vacant ∧ hostRequest 1 = .active ∧ hostRequest 2 = .recall := by
  refine ⟨⟨_, _, rfl⟩, rfl, rfl, ?_⟩
  decide

/-- The word at 0x08 with route length 1 decides the route read of circuit 3. -/
def lastRouteWord : State :=
  { (withRead .route (at_ .running 0)) with
    custody := { action := some { req := .sweep 3, phase := .routing (recordWords []) { recWords := [0] } } } }

theorem witness_RouteReadAcceptsOrRejects :
    lastRouteWord.readsWith .route ∧
    lastRouteWord.custody.action = some { req := .sweep 3, phase := .routing (recordWords []) { recWords := [0] } } ∧
    routeAdvance lastRouteWord 3 { recWords := [0] } 0x00010000 = .done none := ⟨⟨_, _, rfl⟩, rfl, by decide⟩

theorem witness_RouteReadAcceptsOrRejects_accepts :
    routeAdvance lastRouteWord 3
      { recWords := [0x08000000, 0x29070000], words := (circuit17Words 1).take 6, low := some 3 } 0 = .done (some circuit17) := by
  decide

theorem witness_RouteReadFollowsTheChecks :
    channelOk (startAttr 0x08000000 0x29070000).channel = true ∧
    routeStatus (startAttr 0x08000000 0x29070000) 7 (circuit17Words 1) = .valid circuit17 := by decide

/-- The Comparator aligns circuit 17's echo of the first night. -/
def aligning : State :=
  { (at_ .running 0) with
    params := params17
    cmp := { phase := .aligning, item := some ⟨9, .echo (echo17 150 (-1150) 100 (-820))⟩, route := some circuit17
             baseline := some 2180 } }

theorem witness_ArithmeticEndsInWriting :
    aligning.run = .running ∧ aligning.cmp.phase = .aligning ∧
    aligning.cmp.item = some ⟨9, .echo (echo17 150 (-1150) 100 (-820))⟩ ∧ aligning.cmp.route = some circuit17 :=
  ⟨rfl, rfl, rfl, rfl⟩

theorem witness_MatchingEchoGivesNoAlignmentFinding :
    let e := echo17 150 (-1150) 100 (-820)
    (circuit17.expected.map (fun h => h.node)).Nodup ∧ e.stamps.length = circuit17.expected.length ∧
    (∀ p ∈ List.zip circuit17.expected e.stamps, p.2.node = p.1.node ∧ p.2.ingress = p.1.ingress ∧ p.2.egress = p.1.egress ∧
      p.2.channel = p.1.attr.channel) := by decide

/-- One comparison for each row of R118. -/
theorem witness_VerdictTakesTheFirstRowThatApplies :
    (compareEcho params17 circuit17 (echo23 false false [seen 12 1 4]) none).verdict = .misrouted ∧
    (compareEcho params17 circuit17 (echo23 true false [seen 12 1 4]) none).verdict = .broken ∧
    (compareEcho params17 circuit17 (echo23 false true [seen 12 1 4]) none).verdict = .incomplete ∧
    (compareEcho params17 circuit17 (echo17 150 (-1230) 100 (-850)) (some 2184)).verdict = .degraded ∧
    (compareEcho params17 circuit17 (echo17 150 (-1150) 100 (-820)) (some 2180)).verdict = .continuous := by decide

theorem witness_BaselineMovesTowardsACompletePathLoss :
    (compareEcho params17 circuit17 (echo17 150 (-1150) 100 (-820)) none).complete = true ∧
    (compareEcho params17 circuit17 (echo17 150 (-1150) (-32768) (-820)) none).complete = false ∧
    (compareEcho params17 circuit17 (echo17 150 (-1150) 100 (-820)) (some 2120)).baselineAfter = some 2132 ∧
    (compareEcho params17 circuit17 (echo17 150 (-1150) 100 (-820)) (some 2119)).baselineAfter = some 2119 := by decide

/-- A verdict whose engine word is on the bus. -/
def engineWordOnBus : State :=
  { (withWrite .cmpEngine (at_ .running 0)) with
    cmp := { phase := .writing, item := some ⟨9, .outcome .noEcho⟩, result := some (plainResult .noEcho none), writes := [.engine] } }

theorem witness_EngineWordWrittenHandsTheVerdict :
    engineWordOnBus.master.port = some (.loader, ⟨64, some 0x01020304, .cmpEngine⟩) ∧
    engineWordOnBus.cmp.item = some ⟨9, .outcome .noEcho⟩ ∧ engineWordOnBus.cmp.result = some (plainResult .noEcho none) :=
  ⟨rfl, rfl, rfl⟩

def entryOf (words : Nat) : JournalEntry := { kind := 1, body := List.replicate words 0 }

/-- The three placements of the worked sequence, with 184, 64 and 56 bytes. -/
theorem witness_PlacedEntryLiesInTheFreeBytes :
    (ring 808 368).geometry ∧ (ring 992 368).geometry ∧ (ring 320 368).geometry ∧ (entryOf 44).body.length % 2 = 0 ∧
    (entryOf 44).bytes = 184 ∧ placement (ring 808 368) (entryOf 44).bytes = .straight ∧
    placement (ring 992 368) (entryOf 14).bytes = .wrap ∧ placement (ring 320 368) (entryOf 12).bytes = .stall ∧
    (ring 840 840).unread = 0 := by
  refine ⟨?_, ?_, ?_, ?_⟩
  · unfold Journal.geometry; decide
  · unfold Journal.geometry; decide
  · unfold Journal.geometry; decide
  · decide

/-- An entry of a source whose last write is on the bus. -/
def lastEntryWrite (src : Source) : State :=
  { (withWrite .journalEnd (at_ .running 0)) with
    journal := { ring 808 368 with phase := .writing, hand := some (src, entryOf 44), nextW := 992 }
    cmp := { phase := .handed, item := some ⟨9, .outcome .noEcho⟩, result := some (plainResult .noEcho none) }
    ctrl := { offer := some 2 } }

theorem witness_JournalEntryWrittenAdvancesTheJournal :
    (lastEntryWrite .campaign).master.port = some (.loader, ⟨64, some 0x01020304, .journalEnd⟩) ∧
    (lastEntryWrite .campaign).journal.hand = some (.campaign, entryOf 44) ∧ (lastEntryWrite .campaign).ctrl.offer = some 2 ∧
    (lastEntryWrite .comparator).journal.hand = some (.comparator, entryOf 44) ∧
    (lastEntryWrite .comparator).cmp.item = some ⟨9, .outcome .noEcho⟩ ∧
    (lastEntryWrite .comparator).cmp.result = some (plainResult .noEcho none) := ⟨rfl, rfl, rfl, rfl, rfl, rfl⟩

/-- The stall of the worked sequence: the mark 552 makes room for the 56-byte entry, and no mark makes room for 1024 bytes. -/
theorem witness_MarkWriteMovesTheReadMark :
    let stalled := { (at_ .running 6) with
      journal := { ring 320 368 with phase := .stalled, hand := some (.comparator, entryOf 12) } }
    stalled.held = false ∧ stalled.regs.select = 6 ∧ stalled.run = .running ∧ stalled.journal.phase = .stalled ∧
    stalled.journal.hand = some (.comparator, entryOf 12) ∧ (at_ .halted 6).journal.phase ≠ .stalled ∧
    placement (ring 320 552) (entryOf 12).bytes ≠ .stall ∧ placement (ring 320 368) (entryOf 12).bytes = .stall := by decide

theorem witness_PollReadsTheEpochAndTriggersOnChange :
    let s := { (withRead .epoch (at_ .running 0)) with reader := { pollTimer := some 0, lastEpoch := 41 } }
    s.run = .running ∧ s.reader.pollTimer.isSome = true ∧ s.readsWith .epoch ∧ s.reader.sweep = .idle ∧
    (42 : Word) ≠ s.reader.lastEpoch ∧ (41 : Word) = s.reader.lastEpoch :=
  ⟨rfl, rfl, ⟨_, _, rfl⟩, rfl, by decide, rfl⟩

/-- Control words of each kind, a full scan and one that is not, and a hand-back on the bus. -/
theorem witness_RequestScanTakesSlotsInRingOrder :
    let s := { (withRead .reqControl (at_ .running 0)) with reader := { sweep := .requests, stage := .control } }
    s.readsWith .reqControl ∧ s.reader.stage = .control ∧
    (withWrite .reqHandback s).master.port = some (.loader, ⟨64, some 0x01020304, .reqHandback⟩) ∧
    (¬ ownerIsEngine 0 = true ∧ ownerIsEngine 0x101 = true ∧ requestKind 0x101 = .verifyCircuit ∧ requestKind 0x201 = .verifySpans ∧
      requestKind 0x301 = .verifyAll ∧ requestKind 0x401 = .abort ∧ requestKind 0x501 = .unknown ∧ s.reader.sweepPending = false ∧
      ¬ s.params.slotCount ≤ s.reader.processed ∧ s.params.slotCount ≤ 1 ∧ freeSlot s = some 0) := by
  refine ⟨⟨_, _, rfl⟩, rfl, rfl, ?_⟩
  decide

/-- A request whose last argument word is on the bus. -/
def lastArgument (control : Word) (got : List Word) : State :=
  { (withRead .reqArg (at_ .running 0)) with
    params := { circuitCount := 4 }
    custody := { map := [(3, { engine := .watched })] }
    ctrl := { slots := vput (Vector.replicate 8 {}) 2 { id := 4, state := .selecting } }
    reader := { sweep := .requests, stage := .args control got } }

theorem witness_RequestsAreAnsweredAtTheirLastArgument :
    (lastArgument 0x101 []).readsWith .reqArg ∧ (lastArgument 0x101 []).reader.stage = .args 0x101 [] ∧
    (requestKind 0x101 = .verifyCircuit ∧ requestKind 0x201 = .verifySpans ∧ requestKind 0x401 = .abort ∧
      (lastArgument 0x101 []).params.circuitCount ≤ 4 ∧ 3 < (lastArgument 0x101 []).params.circuitCount ∧
      ((lastArgument 0x101 []).mapEntry 3).engine = .watched ∧ ((lastArgument 0x101 []).mapEntry 2).engine ≠ .watched ∧
      freeSlot (lastArgument 0x101 []) = some 0 ∧ [(8 : Word), 0, 0, 0].length = 4 ∧
      slotOfId (lastArgument 0x401 []) 4 = some 2 ∧ (lastArgument 0x401 []).ctrl.offer ≠ some 2) := by
  refine ⟨⟨_, _, rfl⟩, rfl, ?_⟩
  decide

/-- The invariants hold of the part after reset, and a step from it answers a next state. -/
theorem witness_invariants :
    memoryWf State.reset.memory = true ∧ State.reset.queuesBounded ∧ State.reset.journal.sound ∧
    (∀ c ∈ State.reset.pending.head?, c ≠ .powerOn ∧ c ≠ .resetAssert) ∧ ∃ t, step State.reset = .next t := by
  refine ⟨rfl, ⟨by decide, by decide⟩, ⟨.inl ⟨rfl, rfl, rfl, rfl⟩, ?_, ?_⟩, ?_, ⟨_, rfl⟩⟩
  · intro x h; cases h
  · intro src e h; cases src <;> cases h
  · intro c h; cases h

/-! ### Witnesses of the statements on halting, windows, campaigns, custody and comparison -/

/-- A halt in RUNNING or LOADING with an entry of a source stalled and a custody action in a phase. -/
def halting (r : RunState) (phase : JournalPhase) (src : Source) (req : CustodyReq) (p : ActionPhase) : State :=
  { (at_ r 1) with
    custody := { action := some { req := req, phase := p }, queue := [(0, .select 2 4 3 true), (0, .compare 9 3)] }
    journal := { phase := phase, hand := some (src, entryOf 12) } }

theorem witness_HaltRequestByRunState_phases :
    let stalled := halting .running .stalled .comparator (.sweep 3) (.reading [])
    let loading := fun ph p => halting .loading ph .custody (.load 3) p
    stalled.held = false ∧ stalled.regs.select = 1 ∧ stalled.run = .running ∧ stalled.journal.phase = .stalled ∧
    stalled.journal.hand = some (.comparator, entryOf 12) ∧ (0, CustodyReq.select 2 4 3 true) ∈ stalled.custody.queue ∧
    (ActionPhase.reading []).isReading = true ∧ (CustodyReq.sweep 3).isCompare = false ∧
    (halting .running .idle .campaign (.sweep 3) (.entry .notWatched)).journal.phase ≠ .stalled ∧
    (loading .idle (.writing (.finish .notWatched))).run = .loading ∧
    (loading .idle (.entry .notWatched)).journal.custOffer = none ∧
    (loading .stalled (.entry .notWatched)).journal.hand = some (.custody, entryOf 12) ∧
    (loading .stalled (.entry .notWatched)).journal.phase = .stalled ∧ Source.custody ≠ .campaign ∧
    (at_ .stopping 1).run ≠ .running := by decide

/-- R175 at the edges of a range: the drift limit 2000 is held as read and 2001 at the bound; the probe timeout 0 at 1. -/
theorem witness_ClampedParametersAreHeld :
    (paramsOf (goodBlock 0x050 2000)).driftLimit = 2000 ∧ (paramsOf (goodBlock 0x050 2001)).driftLimit = 2000 ∧
    (paramsOf (goodBlock 0x054 0)).probeTimeout = 1 ∧ (paramsOf (goodBlock 0x05C 2)).weighted = false ∧
    (paramsOf (goodBlock 0x05C 1)).weighted = true := by decide

theorem witness_PhaseWordWrittenSetsWindowChange_bits :
    ({ reason := .aborted } : Window).reason.code < 8 ∧ ({ campaign := 255 } : Window).campaign < 256 ∧
    phaseWord { phase := .finished, reason := .verified, campaign := 255 } = 0xFF16 := by decide

/-- An OPEN window at 1000: the close time 1001 lies after now, 1000 does not. -/
theorem witness_OpenAndFinishedRefreshes :
    let s := fun p => withWindow 4 { phase := p, closeTime := 1600, settle := 120 } 1000
    ((s .opened).window 4).phase = .opened ∧ RefreshKind.armAndClose ≠ .armOnly ∧ armOfWord 1 = .armed ∧ armOfWord 2 = .cancel ∧
    armOfWord 0 = .disarmed ∧ (s .opened).clock.netTime < ([1, 1001] : List Word).getD 1 0 ∧
    ([1, 1000] : List Word).getD 1 0 ≤ (s .opened).clock.netTime ∧ ((s .settling).window 4).phase = .settling ∧
    ((s .finished).window 4).phase = .finished := by decide +kernel

/-- Campaign slot 2 in a state with a step, over circuits 0 to 3, with its cursor at one of them. -/
def campaigning (st : CampaignState) (step : SelStep) (cursor : Nat) : State :=
  { waitingEntry with
    params := { circuitCount := 4, depth := 2 }
    ctrl := { slots := vput (Vector.replicate 8 {}) 2 { id := 4, state := st, step := step, cursor := cursor
                                                        spanSet := .list [210], origin := .window 4 } } }

/-- The last circuit and the one before it; a list span met or not, fenced or not; an entry of circuit 0 and none of circuit 3. -/
theorem witness_SelectionOutcomesMoveTheCursor :
    let s := campaigning .selecting .custody
    (s 3).params.circuitCount ≤ 3 + 1 ∧ 2 + 1 < (s 2).params.circuitCount ∧ ((s 3).campaign 2).state = .selecting ∧
    ((s 3).campaign 2).step = .custody ∧ ((campaigning .draining .idle 4).campaign 2).state ≠ .selecting ∧ (s 3).run = .running ∧
    (210 ∈ selected3.spans ∧ 210 ∈ [210]) ∧ ¬ 211 ∈ selected3.spans ∧ (setFence [(210, 1)] (s 3)).fenceCount 210 = 1 ∧
    (s 3).fenceCount 210 = 0 ∧ holdingEntry (s 3) 0 = some 9 ∧ holdingEntry (s 3) 3 = none ∧
    ({ s 3 with regs := { runState := .stopping } } : State).run = .stopping ∧ (at_ .halted 0).run ≠ .running ∧
    (at_ .halted 0).run ≠ .stopping := by decide

/-- A claim of circuit 3: WATCHED, CLAIMED or neither; with a link and, under BIND, without one; one below its depth and at it. -/
theorem witness_ClaimsTakeEntriesInOrder :
    let s := campaigning .selecting (.claim selected3 {}) 3
    let bound := { s with params := { links := Vector.replicate 4 { linkage := .bind } } }
    let with_ := fun st => setMapEntry 3 { engine := st } s
    ((with_ .watched).mapEntry 3).engine = .watched ∧ ((with_ .claimed).mapEntry 3).engine = .claimed ∧
    (s.mapEntry 3).engine = .ignored ∧ s.fenceCount 210 = 0 ∧ (setFence [(210, 1)] s).fenceCount 210 = 1 ∧
    chooseLink s {} = some 0 ∧ chooseLink bound {} = none ∧ s.run = .running ∧ bestClaimant s = some 2 ∧ freeEntry s = some 0 ∧
    (s.campaign 2).step = .claim selected3 {} ∧ (s.campaign 2).owned < s.params.depth ∧
    bestClaimant (campaigning .draining .idle 4) = none := by decide

/-- An entry of owner 2 with joiners, QUEUED and WAITING, and a verdict for it. -/
theorem witness_EntriesLeaveAndAreCounted :
    let x : Entry := { state := .queued, owner := 2, joiners := [1, 5] }
    x.joiners.Nodup ∧ x.owner ∉ x.joiners ∧ x.state.isOpen = true ∧ (waitingEntry.entry 9).state.isOpen = true ∧
    engineWordOnBus.cmp.item = some ⟨9, .outcome .noEcho⟩ ∧ engineWordOnBus.cmp.result = some (plainResult .noEcho none) ∧
    Verdict.continuous ≠ .none := by decide

/-- Slot 2 is the one campaign complete; window 4 waits for a slot; a campaign at the bounds of its SUMMARY's fields. -/
theorem witness_CampaignsDrainSummariseAndAreGranted :
    let s := campaigning .draining .idle 4
    let waiting := { withWindow 4 { phase := .queued, spans := [210] } 0 with ctrl := s.ctrl }
    let c : Campaign := { id := 255, origin := .request 31, cursor := 4096, counts := { selected := 65535, continuous := 65535 } }
    s.run = .running ∧ s.ctrl.offer = none ∧ (s.campaign 2).state = .draining ∧ (s.campaign 2).owned = 0 ∧
    (s.campaign 2).joinedOut = 0 ∧ (s.campaign 1).state = .free ∧ (s.campaign 2).origin = .window 4 ∧
    c.id < 256 ∧ c.origin.index < 256 ∧ c.cursor < 65536 ∧ c.counts.selected < 65536 ∧ c.counts.closed = c.counts.selected ∧
    c.counts.joined < 65536 ∧ (∀ w, c.origin ≠ .window w) ∧ waiting.run = .running ∧ s.sched.slotWait = [] ∧
    ({ waiting with sched := { waiting.sched with slotWait := [4] } } : State).sched.slotWait = 4 :: [] ∧ freeSlot waiting = some 0 := by
  decide

/-- An entry that campaign 2 owns alone, one with a joiner, one that it has joined, and one it owns in COMPARING. -/
theorem witness_AbortGivesUpTheEntries :
    let alone : Entry := { state := .waiting, owner := 2 }
    let joined : Entry := { state := .backoff, owner := 2, joiners := [1, 5] }
    let joining : Entry := { state := .waiting, owner := 1, joiners := [2] }
    let comparing : Entry := { state := .comparing, owner := 2 }
    alone.state.isOpen = true ∧ alone.owner = 2 ∧ alone.joiners = [] ∧ joined.state.isOpen = true ∧ joined.joiners = 1 :: [5] ∧
    joining.state ≠ .free ∧ 2 ∈ joining.joiners ∧ joining.owner ≠ 2 ∧ comparing.state.isOpen = false ∧
    ({} : Entry).state = .free := by decide

/-- A custody action on circuit 3 in RUNNING, its map entry in a state, with the last word of its record or route reads on the bus. -/
def selecting (req : CustodyReq) (st : EngineState) (tag : Tag) (p : ActionPhase) : State :=
  setMapEntry 3 { engine := st } { (withRead tag (at_ .running 0)) with custody := { action := some { req := req, phase := p } } }

/-- The route read of circuit 17's words but the last half; a last word of 0 ends it valid, and word 0x08 of 0 ends one invalid. -/
def route17 : RouteRead := { recWords := [0x08000000, 0x29070000], words := (circuit17Words 1).take 6, low := some 3 }

theorem witness_SelectionActionsEndByTheTable :
    (selecting (.select 2 4 3 true) .watched .record (.reading [0, 0, 0, 0, 0])).readsWith .record ∧
    (selecting (.select 2 4 3 true) .watched .route (.routing (recordWords []) route17)).readsWith .route ∧
    ((selecting (.select 2 4 3 true) .watched .record (.reading [0, 0, 0, 0, 0])).custody.action =
        some { req := .select 2 4 3 true, disturbed := false, phase := .reading [0, 0, 0, 0, 0] } ∧
      ([.watched, .claimed, .rejected, .released, .ignored] : List EngineState).all (fun st =>
        decide (((selecting (.select 2 4 3 true) st .record .comparing).mapEntry 3).engine = st)) = true ∧
      routeAdvance (selecting (.select 2 4 3 true) .watched .route .comparing) 3 route17 0 = .done (some circuit17) ∧
      routeAdvance (selecting (.select 2 4 3 true) .watched .route .comparing) 3 { recWords := [0] } 0 = .done none) := by
  refine ⟨⟨_, _, rfl⟩, ⟨_, _, rfl⟩, ?_⟩
  decide

/-- The Comparator's item on entry 9, of circuit 3, in its custody action. -/
def comparing (tag : Tag) (p : ActionPhase) (ev : Evidence) : State :=
  { selecting (.compare 9 3) .claimed tag p with
    probes := { entries := vput (Vector.replicate 64 {}) 9 { state := .comparing, circuit := 3, revision := 1 } }
    cmp := { phase := .custody, item := some ⟨9, ev⟩ } }

theorem witness_ComparisonActionsDecideTheNextPhase_reads :
    (comparing .record (.reading [0x10001, 0, 0, 0, 0]) (.outcome .noEcho)).readsWith .record ∧
    (comparing .route (.routing (recordWords []) route17) (.outcome .noEcho)).readsWith .route := ⟨⟨_, _, rfl⟩, ⟨_, _, rfl⟩⟩

/-- The host revision 1 is the entry's, 0 is another. -/
theorem witness_ComparisonActionsDecideTheNextPhase :
    let s := comparing .record (.reading [0x10001, 0, 0, 0, 0]) (.outcome .noEcho)
    s.cmp.item = some ⟨9, .outcome .noEcho⟩ ∧ (s.mapEntry (s.entry 9).circuit).engine = .claimed ∧
    s.custody.action = some { req := .compare 9 (s.entry 9).circuit, phase := .reading [0x10001, 0, 0, 0, 0] } ∧
    hostRevision 0x10001 = (s.entry 9).revision ∧ hostRevision 1 ≠ (s.entry 9).revision ∧
    routeAdvance s 3 route17 0 = .done (some circuit17) ∧ routeAdvance s 3 { recWords := [0] } 0 = .done none := by decide

/-- An echo with entry 9's tag waits with an outcome item of entry 10, or alone; the label 1 is the entry's, 2 is another. -/
def taking (trail : Nat) (outcomes : List (Fin 64)) (last : Bool) : State :=
  { (at_ .running 0) with
    fifo := [{ echo23 false false [] with tag := 64 + 9, trail := trail }]
    probes :=
      { outcomes := outcomes
        entries := vput (vput (Vector.replicate 64 {}) 9 { state := .waiting, generation := 1, trail := 1 }) 10
          { state := .concluded, outcome := some .noEcho } }
    cmp := { lastOutcome := last } }

theorem witness_ComparatorTakesItems :
    let s := taking 1 [10] false
    let e := fun t => { echo23 false false [] with tag := 64 + 9, trail := t : Echo }
    s.run = .running ∧ s.cmp.phase = .idle ∧ aligning.cmp.phase ≠ .idle ∧ (taking 1 [10] true).fifo = e 1 :: [] ∧
    (taking 1 [10] true).cmp.lastOutcome = true ∧ (taking 2 [] false).probes.outcomes = [] ∧ (taking 2 [] false).fifo = e 2 :: [] ∧
    (s.entry (tagSlot (e 1).tag)).generation = (e 1).tag / 64 ∧ (s.entry (tagSlot (e 1).tag)).trail = (e 1).trail ∧
    (s.entry (tagSlot (e 1).tag)).state = .waiting ∧ (s.entry (tagSlot (e 2).tag)).trail ≠ (e 2).trail ∧
    s.probes.outcomes = 10 :: [] ∧ s.cmp.lastOutcome = false ∧ (s.entry 10).outcome = some .noEcho := by decide

/-- Circuit 17's second segment at its tolerances 150 and 100: the deviation 150 gives nothing and 151 LOSS_HIGH, −100 nothing and
−101 LOSS_LOW; an unknown power gives UNMEASURED. -/
theorem witness_SegmentLossesGiveTheFindings :
    let h : Hop := ⟨31, 2, 5, 212, 900, 0, ⟨2, true, true, 41⟩⟩
    let far := fun rx : Int => (⟨31, 2, 5, 41, rx, 0⟩ : Stamp)
    let near : Stamp := ⟨12, 1, 4, 41, 0, 0⟩
    let kinds := fun rx : Int => (lossSegment params17.tolerance h ⟨[], []⟩ near (far rx) 1 1 {}).findings.map (fun f => f.kind)
    h.attr.lossCheck = true ∧ kinds (-150) = [] ∧ kinds (-151) = [.lossHigh] ∧ kinds 100 = [] ∧ kinds 101 = [.lossLow] ∧
    kinds (-32768) = [.unmeasured] ∧ circuit17.expected[1]? = some h ∧ circuit17.segments[0]? = some ⟨[620, 480], [150]⟩ := by decide

/-- R133 R135: known powers at the ends of their range, and the largest expected loss. -/
theorem witness_SegmentLossesGiveTheFindings_ranges :
    let g : Segment := ⟨List.replicate 31 5000, List.replicate 30 2000⟩
    let near : Stamp := ⟨12, 1, 4, 41, 0, -5000⟩
    let far : Stamp := ⟨31, 2, 5, 41, 2500, 0⟩
    near.tx ≤ 2500 ∧ -5000 ≤ near.tx ∧ -5000 ≤ far.rx ∧ far.rx ≤ 2500 ∧ g.expectedLoss = 215000 ∧ near.tx - far.rx = -7500 := by
  decide

/-- Nothing is due and the sub-count stands at 998 and at 999; a part is held; a poll timer has come to 0. -/
theorem witness_IdleStepLetsTimePass :
    let s := fun n => { (at_ .running 0) with clock := { subCount := n } }
    (s 998).pending = [] ∧ (s 998).held = false ∧ dueCommand (s 998) = none ∧ (countTimers (s 998)).clock.subCount < 999 ∧
    999 ≤ (countTimers (s 999)).clock.subCount ∧ { State.reset with held := true }.held = true ∧
    dueCommand { (at_ .running 0) with reader := { pollTimer := some 0 } } = some .pollTimerExpiry := by decide

/-- The custody action of each requester that waits for its entry, with that entry's last write on the bus. -/
theorem witness_JournalEntryWrittenAdvancesTheJournal_custody :
    let s := fun (req : CustodyReq) => { lastEntryWrite .custody with
      params := { circuitCount := 5 }, reader := { sweep := .custody, circuit := 3 }
      custody := { action := some { req := req, phase := .entry .rejected } } }
    (s (.sweep 3)).journal.hand = some (.custody, entryOf 44) ∧
    (s (.sweep 3)).custody.action = some { req := .sweep 3, phase := .entry .rejected } ∧ (s (.sweep 3)).run = .running ∧
    (s (.sweep 3)).reader.sweep = .custody ∧ (s (.sweep 3)).reader.circuit + 1 < (s (.sweep 3)).params.circuitCount ∧
    (s (.load 3)).run ≠ .loading ∧
    (s (.select 2 4 3 true)).custody.action = some { req := .select 2 4 3 true, phase := .entry .rejected } := by decide

/-- A load's acceptance that writes nothing: the word showed WATCHED and the captured revision; the last write of a rejection. -/
theorem witness_RouteReadAcceptsOrRejects_load :
    let words := recordWords [0x10001, 1, 1, 0, 0, 0]
    let s := { selecting (.load 3) .watched .route (.routing words route17) with
      regs := { runState := .loading }, loader := { step := .custody, index := 3 }, params := { circuitCount := 5 } }
    let rejecting := selecting (.load 3) .rejected .actionEnd (.writing (.journal 1 .routeInvalid none [] .notWatched))
    hostRevision words.host = bits words.captured 15 0 ∧ bits words.engine 2 0 = 1 ∧ s.run = .loading ∧
    s.loader.step = .custody ∧ s.loader.index + 1 < s.params.circuitCount ∧
    routeAdvance s 3 route17 0 = .done (some circuit17) ∧
    rejecting.master.port = some (.loader, ⟨64, none, .actionEnd⟩) ∧ rejecting.run ≠ .halted ∧
    rejecting.custody.action = some { req := .load 3, phase := .writing (.journal 1 .routeInvalid none [] .notWatched) } := by decide

/-! ### What the rules R11, R45, R69, R106 and R107 say of the moments between -/

/-- R11: a selection at CLAIMED leaves the pending release as it stands until its route has been read. -/
theorem test_release_waits_for_the_route :
    let words := recordWords [2, 0, 0, 0, 0, 0]
    let a : Action := { req := .select 2 4 3 true, phase := .reading [2, 0, 0, 0, 0] }
    let s := selecting a.req .claimed .record a.phase
    ((recordDone a words s).mapEntry 3).release = .none ∧ ((routeResult a words 0 none s).mapEntry 3).release = .toReleased := by decide

/-- R45: windows are evaluated in LOADING from the custody step on, and not during the window step. -/
theorem test_window_step_does_not_evaluate :
    (lastWindowWord 5).evaluates = false ∧ ({ lastWindowWord 5 with loader := { step := .custody } } : State).evaluates = true := by
  decide

/-- R107: a link frozen by a bus fault keeps the frame it is sending when its signal is lost; a monitor that acts does not. -/
theorem test_frozen_link_finishes_its_frame :
    let s := linked { started := true, signal := true, state := .up, txQueue := [[1], [2]] }
    ((signalLost 2 (modLink 2 freezeLink s)).link 2).txQueue = [[1]] ∧ ((signalLost 2 s).link 2).txQueue = [] := by decide

/-- R106 R176: an earlier session's monitor stands still in a later load's Control Block step. -/
theorem test_monitor_rests_before_its_link_step :
    let s := { linked { started := true, signal := true, state := .up } with
      regs := { runState := .loading }, loader := { step := .controlBlock } }
    monitorActs s 2 = false ∧ monitorActs { s with loader := { step := .windows } } 2 = true := by decide

/-- R69: HALT in the Control Block step of a load abandons the entry of a selection that a bus fault left stalled, and the Campaign Table
stands: nothing is counted, the cursor stays, no slot word is handed over. -/
theorem test_halted_load_leaves_the_campaign_table :
    let s := { halting .loading .stalled .custody (.select 2 4 3 true) (.entry .rejected) with
      loader := { step := .controlBlock }, params := { circuitCount := 4 }, ctrl := (campaigning .selecting .custody 3).ctrl }
    let t := haltRequest s
    t.run = .halted ∧ t.journal.phase = .idle ∧ t.custody.action = none ∧ t.campaign 2 = s.campaign 2 ∧ t.queue .campaign = [] := by
  decide

/-! ### The end of the load, the services and the changes of a link -/

/-- The custody step of a load of four circuits, at one of them. -/
def custodyStep (index : Nat) (held : Bool) : State :=
  { (at_ .loading 0) with
    regs := { runState := .loading, pollNow := held }, params := { circuitCount := 4, pollPeriod := 5 }
    loader := { step := .custody, index := index, epoch := 41 } }

/-- R22: the next circuit after 2 and the last one, 3; a held POLL_NOW and none. The word of circuit 3's action is the last one. -/
theorem witness_LoadTakesTheMapFromEngineWords_ends :
    let writing := { withWrite .actionEnd (custodyStep 3 false) with
      custody := { action := some { req := .load 3, phase := .writing (.finish .notWatched) } } }
    (custodyStep 2 false).run = .loading ∧ (custodyStep 2 false).loader.step = .custody ∧
    (custodyStep 2 false).loader.index + 1 < (custodyStep 2 false).params.circuitCount ∧
    (custodyStep 3 true).params.circuitCount ≤ (custodyStep 3 true).loader.index + 1 ∧ (custodyStep 3 true).regs.pollNow = true ∧
    (custodyStep 3 false).regs.pollNow = false ∧
    writing.master.port = some (.loader, ⟨64, some 0x01020304, .actionEnd⟩) ∧
    writing.custody.action = some { req := .load 3, phase := .writing (.finish .notWatched) } := by decide

/-- R22: the shown codes IGNORED, RELEASED and REJECTED stand under VACANT, RECALL and an unchanged ACTIVE. -/
theorem witness_LoadTakesTheMapFromEngineWords_stays :
    (mapEntryOfWord 0).engine = .ignored ∧ hostRequest 0 = .vacant ∧ (mapEntryOfWord 3).engine = .rejected ∧
    hostRequest 0x10001 = .active ∧ hostRevision 0x10001 = 1 := by decide

/-- R158 R159 R166 R176: RUNNING with LOAD_DONE, the poll timer at 50 ms, the epoch kept, and the held trigger's sweep. -/
theorem test_load_ends_in_running :
    let t := loadNext (custodyStep 3 true)
    t.run = .running ∧ t.hasEvent .loadDone = true ∧ t.reader.pollTimer = some 50 ∧ t.reader.lastEpoch = 41 ∧
    t.custody.queue = [(0, .sweep 0)] ∧ t.regs.pollNow = false := by decide

/-- R177: every block has finished, and the Custody Unit has not. -/
theorem witness_ResponseChangesTheWrittenWordOnly_handed :
    let done := at_ .stopping 0
    let busy := { done with custody := { action := some { req := .sweep 3, phase := .entry .rejected } } }
    done.run = .stopping ∧ done.cmp.phase = .idle ∧ done.journal.phase = .idle ∧
    (done.journal.cmpOffer = none ∧ done.journal.custOffer = none ∧ done.journal.campOffer = none) ∧
    done.custody.action = none ∧ done.reader.stage ≠ .answered ∧ done.master.port = none ∧
    (requesterOrder.all (fun q => decide (done.queue q = []))) = true ∧ done.loader.stopHanded = false ∧
    busy.custody.action ≠ none := by decide

/-- Entry 9, urgent, queued on a link, and the states of links 0 and 1; its reach pair is 0 and 1. -/
def queuedOn (k : Fin 4) (linkage : Linkage) (primary alternate : LinkState) (attempts : Nat) : State :=
  { (at_ .running 0) with
    params := { links := Vector.replicate 4 { linkage := linkage, limit := 4 } }
    links := vput (vput (Vector.replicate 4 {}) 0 { state := primary }) 1 { state := alternate }
    probes :=
      { entries := vput (Vector.replicate 64 {}) 9
          { state := .queued, link := k, cls := .urgent, reach := { primary := 0, alternate := 1, altValid := true }
            spans := [210], attempts := attempts }
        scheds := vput (Vector.replicate 4 {}) k { urgent := [9] } } }

/-- R87: primary lost with the alternate UP and not, alternate lost with the primary UP and not, and BIND. -/
theorem witness_LinkAndQueueChoice_down :
    let ok := fun (k : Fin 4) (g : Linkage) (a b : LinkState) =>
      let s := queuedOn k g a b 0
      let e := s.entry 9
      e.link = k ∧ ¬ (s.link k).state = .up ∧ (s.linkParams e.reach.primary).linkage = g ∧ e.reach.primary = 0 ∧
        e.reach.altValid = true ∧ (s.link 0).state = a ∧ (s.link e.reach.alternate).state = b
    ok 0 .reroute .down .up ∧ ok 0 .reroute .down .down ∧ ok 1 .reroute .up .down ∧ ok 1 .reroute .down .down ∧
    ok 0 .bind .down .up := by decide

/-- R88: link 0 comes UP for the entry that waits on its alternate, link 1 for the one on its primary, link 2 for none. -/
theorem witness_LinkAndQueueChoice_up :
    let a := queuedOn 1 .reroute .up .down 0
    let b := queuedOn 0 .reroute .down .up 0
    ((a.entry 9).link = 1 ∧ (a.entry 9).reach.primary = 0 ∧ ¬ (a.link 1).state = .up) ∧
    ((b.entry 9).link = 0 ∧ (b.entry 9).reach.alternate = 1 ∧ ¬ (b.link 0).state = .up) ∧
    (b.linkParams (b.entry 9).reach.primary).linkage = .reroute ∧ (b.link 1).state = .up := by decide

/-- R87 R88: the entry moves to the other link, at the tail of its class's queue, and back. -/
theorem test_links_take_the_queued_entries :
    let t := linkWentDown 0 (queuedOn 0 .reroute .down .up 0)
    (t.launchSched 1).urgent = [9] ∧ (t.launchSched 0).urgent = [] ∧ (t.entry 9).link = 1 ∧
    ((linkBecameUp 0 (queuedOn 1 .reroute .up .down 0)).launchSched 0).urgent = [9] ∧
    ((linkWentDown 0 (queuedOn 0 .bind .down .up 1)).entry 9).outcome = some .noEcho := by decide

/-- R76: everything a launch asks for, with the head's span free and with it fenced; and nothing queued. -/
theorem witness_NoFrameForAFencedSpan_launch :
    let s := queuedOn 0 .reroute .up .down 0
    s.run = .running ∧ (s.link 0).state = .up ∧ s.waitingCount 0 < (s.linkParams 0).limit ∧ (s.launchSched 0).gap = none ∧
    s.journal.phase ≠ .stalled ∧ launchPick 0 s = some (⟨.urgent, .urgent, 0⟩, 9) ∧
    (∀ x ∈ (s.entry 9).spans, s.fenceCount x = 0) ∧ 210 ∈ (s.entry 9).spans ∧ 0 < (setFence [(210, 1)] s).fenceCount 210 ∧
    launchPick 0 (at_ .running 0) = none := by decide

/-- R11: two requests of one event and a later one wait; one alone; none; the unit holds an action. -/
theorem witness_HostWordActionFollowsTheTable_begins :
    let s := fun (q : List (Nat × CustodyReq)) => { (at_ .running 0) with custody := { queue := q } }
    (s [(4, .sweep 3), (4, .select 2 4 3 true), (5, .sweep 4)]).custody.action = none ∧
    (s [(4, .sweep 3), (4, .select 2 4 3 true), (5, .sweep 4)]).run = .running ∧
    (∀ x ∈ [(5, CustodyReq.sweep 4)].head?, x.1 ≠ 4) ∧ (s []).custody.queue = [] ∧
    (selecting (.sweep 3) .watched .plain .comparing).custody.action ≠ none ∧
    (at_ .halted 0).run ≠ .running ∧ (at_ .halted 0).run ≠ .stopping := by decide

/-- R11: a request that came alone is begun, and the later one waits. -/
theorem test_the_oldest_request_is_begun :
    let t := serveCustody { (at_ .running 0) with custody := { queue := [(4, .sweep 3), (5, .sweep 4)] } }
    t.custody.action = some { req := .sweep 3, phase := .reading [] } ∧ t.custody.queue = [(5, .sweep 4)] := by decide

/-- R121: an echo item with findings, and an outcome item. -/
theorem witness_EngineWordWrittenHandsTheVerdict_echo :
    let item : Item := ⟨9, .echo (echo23 true false [seen 12 1 4])⟩
    let s := { engineWordOnBus with cmp := { engineWordOnBus.cmp with item := some item } }
    s.cmp.item = some item ∧ item.evidence = .echo (echo23 true false [seen 12 1 4]) ∧
    s.cmp.result = some (plainResult .noEcho none) := ⟨rfl, rfl, rfl⟩

/-- An entry of 56 bytes offered by one source, the Comparator having been served last. -/
def offered (r : RunState) (w : Nat) (src : Source) : State :=
  let j := { ring w 368 with served := .comparator }
  { (at_ r 0) with
    journal := match src with
      | .comparator => { j with cmpOffer := some (entryOf 12) }
      | .custody => { j with custOffer := some (entryOf 12) }
      | .campaign => { j with campOffer := some (entryOf 12) } }

/-- R148 R150 R155: each source's entry is the first in turn, where it fits and where it does not, in RUNNING and in STOPPING. -/
theorem witness_PlacedEntryLiesInTheFreeBytes_takes :
    let ok := fun (src : Source) (before after : List Source) =>
      let s := offered .running 320 src
      sourcesAfter s.journal.served = before ++ src :: after ∧ (∀ x ∈ before, s.journal.offer x = none) ∧
        s.journal.offer src = some (entryOf 12) ∧ s.journal.phase = .idle
    ok .custody [] [.campaign, .comparator] ∧ ok .campaign [.custody] [.comparator] ∧ ok .comparator [.custody, .campaign] [] ∧
    placement (offered .running 320 .custody).journal (entryOf 12).bytes = .stall ∧
    placement (offered .running 808 .custody).journal (entryOf 12).bytes = .straight ∧
    (offered .running 320 .custody).run = .running ∧ (offered .stopping 320 .campaign).run = .stopping := by decide

/-- R150 R155: the same offer stalls in RUNNING with JOURNAL_STALL set, and is given up in STOPPING. -/
theorem test_an_offer_without_room :
    (serveJournal (offered .running 320 .campaign)).journal.phase = .stalled ∧
    (serveJournal (offered .running 320 .campaign)).hasEvent .journalStall = true ∧
    (serveJournal (offered .stopping 320 .campaign)).journal.phase = .idle ∧
    (serveJournal (offered .stopping 320 .campaign)).journal.campOffer = none := by decide

/-- R151, log entry 18: the stall of the load's custody step, and one left in its Control Block step. -/
theorem witness_MarkWriteMovesTheReadMark_loading :
    let s := fun (st : LoadStep) => { (at_ .loading 6) with
      loader := { step := st }, journal := { ring 320 368 with phase := .stalled, hand := some (.custody, entryOf 12) } }
    (s .custody).held = false ∧ (s .custody).regs.select = 6 ∧ (s .custody).run = .loading ∧ (s .custody).loader.step = .custody ∧
    (s .custody).journal.phase = .stalled ∧ (s .custody).journal.hand = some (.custody, entryOf 12) ∧
    (s .controlBlock).run ≠ .running ∧ (s .controlBlock).loader.step ≠ .windows ∧ (s .controlBlock).loader.step ≠ .custody := by
  decide

/-! ### Openings, reads that go on, the ends of actions and the writes of a comparison -/

/-- R27, R41: window 4, PENDING with its open time reached, then with its close time reached; an entry with a span it fences, and one with
none. -/
theorem witness_SettleExpiryLowersAndOpeningRaises_opens :
    let s := fun (now : Word) => { withWindow 4 { phase := .pending, openTime := 1000, closeTime := 1600, settle := 120, spans := [210] } now with
      probes := waitingEntry.probes }
    ((s 1000).window 4).phase = .pending ∧ (s 1000).clock.netTime < ((s 1000).window 4).closeTime ∧
    ((s 1000).window 4).openTime ≤ (s 1000).clock.netTime ∧ ((s 1600).window 4).closeTime ≤ (s 1600).clock.netTime ∧
    ((s 1000).window 4).spans.Nodup ∧ 210 ∈ ((s 1000).entry 9).spans ∧ ((s 1000).entry 9).state.isOpen = true ∧
    (s 1000).fenceCount 210 = 0 ∧ ¬ ((s 1000).entry 0).state.isOpen = true ∧ 211 ∉ ((s 1000).window 4).spans := by decide +kernel

/-- R27, R28: now before the expiry that a closing gives, an OPEN window at its close time, and the states that evaluate and do not. -/
theorem witness_EvaluationMovesAWindowByTime_fences :
    let s := fun (x : Window) (now : Word) => withWindow 4 { x with openTime := 1000, closeTime := 1600, settle := 120, spans := [210] } now
    let pending := s { phase := .pending } 1600
    let opened := s { phase := .opened } 1600
    let settling := fun (now : Word) => s { phase := .settling, expiry := 1720 } now
    (pending.window 4).phase = .pending ∧ (pending.window 4).closeTime ≤ pending.clock.netTime ∧
    pending.clock.netTime < timePlus pending.clock.netTime (pending.window 4).settle ∧ (pending.window 4).spans.Nodup ∧
    (opened.window 4).phase = .opened ∧ (opened.window 4).closeTime ≤ opened.clock.netTime ∧
    ((settling 1720).window 4).phase = .settling ∧ ((settling 1720).window 4).expiry ≤ (settling 1720).clock.netTime ∧
    ¬ ((settling 1719).window 4).expiry ≤ (settling 1719).clock.netTime ∧ pending.evaluates = true ∧ (at_ .halted 0).evaluates = false := by
  decide +kernel

/-- R27, R41: the opening raises the fence of span 210, which withdraws entry 9, and marks the phase word due. -/
theorem test_an_opening_fences :
    let s := { withWindow 4 { phase := .pending, openTime := 1000, closeTime := 1600, settle := 120, spans := [210] } 1000 with
      probes := waitingEntry.probes }
    let t := evalWindow 4 s
    t.fenceCount 210 = 1 ∧ (t.entry 9).state = .free ∧ t.sched.phaseDue = [4] ∧ s.fenceCount 210 = 0 := by decide +kernel

/-- One read of each operation that goes on, on the bus: the last but one word of each. -/
theorem witness_ResponseChangesTheWrittenWordOnly_reads :
    let block := { (withRead .controlBlock (at_ .loading 0)) with loader := { step := .controlBlock, got := List.replicate 32 0 } }
    let window := fun n => { lastWindowWord 5 with loader := { step := .windows, got := List.replicate n 0 } }
    let recordReads := fun n =>
      { (withRead .record (at_ .running 0)) with custody := { action := some { req := .sweep 3, phase := .reading (List.replicate n 0) } } }
    block.readsWith .controlBlock ∧ (window 20).readsWith .loadWindow ∧ (recordReads 4).readsWith .record ∧ lastRouteWord.readsWith .route ∧
    (block.run = .loading ∧ block.loader.got.length + 1 < 34 ∧ (window 20).run = .loading ∧ (window 20).loader.got.length + 1 < 22 ∧
      (window 18).loader.got.length + 1 < 20 ∧
      (recordReads 4).custody.action = some { req := .sweep 3, phase := .reading (List.replicate 4 0) } ∧
      (List.replicate 4 (0 : Word)).length + 1 < 6 ∧
      routeAdvance lastRouteWord 3 {} 0x08000000 = .read { recWords := [0x08000000] } (recordAddr lastRouteWord 3 0x08)) :=
  ⟨⟨_, _, rfl⟩, ⟨_, _, rfl⟩, ⟨_, _, rfl⟩, ⟨_, _, rfl⟩, by decide +kernel⟩

/-- R32, R164: a full refresh with 18 words read, one of an OPEN window with none, and VERIFY_SPANS with three of its five words. -/
theorem witness_ResponseChangesTheWrittenWordOnly_arguments :
    let s := fun (k : RefreshKind) (n : Nat) =>
      { (withRead .refresh (at_ .running 0)) with sched := { refresh := some { window := 4, kind := k, got := List.replicate n 0 } } }
    (s .full 18).readsWith .refresh ∧ (s .armAndClose 0).readsWith .refresh ∧
    (lastArgument 0x201 [3, 0, 0]).readsWith .reqArg ∧ (lastArgument 0x201 [3, 0, 0]).reader.stage = .args 0x201 [3, 0, 0] ∧
    ((s .full 18).sched.refresh = some { window := 4, kind := .full, got := List.replicate 18 0 } ∧
      (List.replicate 18 (0 : Word)).length + 1 < 20 ∧ (s .armAndClose 0).sched.refresh = some { window := 4, kind := .armAndClose } ∧
      requestKind 0x201 = .verifySpans ∧ [(3 : Word), 0, 0].length + 1 < 5) :=
  ⟨⟨_, _, rfl⟩, ⟨_, _, rfl⟩, ⟨_, _, rfl⟩, rfl, by decide +kernel⟩

/-- R174, R105: with no window the custody step begins at once, and with one the window step does. -/
theorem witness_LoadClearsAndStartsTheBlocks_first :
    (paramsOf (goodBlock 0x014 0)).windowCount = 0 ∧ (paramsOf (goodBlock 0x014 1)).windowCount = 1 ∧
    structuralFault (goodBlock 0x014 64) = none := by decide +kernel

/-- A sweep in RUNNING at one of four circuits, its action's last write on the bus, over some windows. -/
def sweeping (circuit : Nat) (phase : Phase) : State :=
  { (withWrite .actionEnd (at_ .running 0)) with
    params := { circuitCount := 4, windowCount := 5 }
    sched := { windows := Vector.replicate 64 { phase := phase } }
    reader := { sweep := .custody, circuit := circuit }
    custody := { action := some { req := .sweep circuit, phase := .writing (.finish .notWatched) } } }

/-- R20, R161, R32: circuit 2 of four and the last one; windows to read and none; the last write of a sweep's action. -/
theorem witness_HostWordActionFollowsTheTable_ends :
    let s := sweeping 2 .idle
    s.master.port = some (.loader, ⟨64, some 0x01020304, .actionEnd⟩) ∧
    s.custody.action = some { req := .sweep 2, phase := .writing (.finish .notWatched) } ∧
    s.run = .running ∧ s.reader.sweep = .custody ∧ s.reader.circuit + 1 < s.params.circuitCount ∧
    (sweeping 3 .idle).params.circuitCount ≤ (sweeping 3 .idle).reader.circuit + 1 ∧ (at_ .running 0).reader.sweep ≠ .custody := by
  decide +kernel

theorem witness_HostWordActionFollowsTheTable_refreshes :
    let s := fun p => { sweeping 3 p with reader := { (sweeping 3 p).reader with sweep := .windows, window := 0 } }
    nextRefresh (s .idle) = some (0, .full) ∧ nextRefresh (s .opened) = some (0, .armAndClose) ∧
    nextRefresh (s .finished) = some (0, .armOnly) ∧ nextRefresh (s .queued) = none := by decide +kernel

/-- R16: the last write of a selection's action, live and not. -/
theorem witness_SelectionActionsEndByTheTable_ends :
    let s := fun live => { (withWrite .actionEnd (campaigning .selecting .custody 3)) with
      custody := { action := some { req := .select 2 4 3 live, phase := .writing (.finish .notWatched) } } }
    (s true).master.port = some (.loader, ⟨64, some 0x01020304, .actionEnd⟩) ∧
    (s true).custody.action = some { req := .select 2 4 3 true, phase := .writing (.finish .notWatched) } ∧
    (s false).custody.action = some { req := .select 2 4 3 false, phase := .writing (.finish .notWatched) } ∧ (s true).run = .running := by
  decide +kernel

/-- R120: the first write of a comparison on the bus with three to come, and the time's with the engine word to come. -/
theorem witness_EngineWordWrittenHandsTheVerdict_writes :
    let s := fun ws => { (withWrite .cmpWrite (at_ .running 0)) with
      cmp := { engineWordOnBus.cmp with writes := ws } }
    (s [.baseline, .loss, .time, .engine]).master.port = some (.loader, ⟨64, some 0x01020304, .cmpWrite⟩) ∧
    (s [.baseline, .loss, .time, .engine]).cmp.writes = .baseline :: .loss :: [.time, .engine] ∧
    (s [.loss, .time, .engine]).cmp.writes = .loss :: .time :: [.engine] ∧ (s [.time, .engine]).cmp.writes = .time :: .engine :: [] ∧
    (s [.time, .engine]).cmp.item = some ⟨9, .outcome .noEcho⟩ ∧ (s [.time, .engine]).cmp.result = some (plainResult .noEcho none) := by
  decide +kernel

/-- R120: the engine word of a NO_ECHO of campaign 4 whose circuit stays WATCHED. -/
theorem test_engine_word_of_a_comparison :
    let s := { (withWrite .cmpWrite (at_ .running 0)) with
      ctrl := { slots := vput (Vector.replicate 8 {}) 0 { id := 4 } }, cmp := { engineWordOnBus.cmp with writes := [.time, .engine] } }
    ((deliver .cmpWrite 0 s.portFreed).queue .custody).map (fun a => (a.write, a.tag)) =
      [(some (0x401 + 16 * BitVec.ofNat 32 Verdict.noEcho.code), .cmpEngine)] := by decide +kernel

/-- R8: the least route that meets every check: two HOPs, with an ATTRIBUTE word between them. -/
theorem witness_RouteReadFollowsTheChecks_valid :
    let before := [hopWord 1 4 1023 4094 5000 2000, attrWord 0 1 1 127, hopWord 3 7 44 4095 0 0]
    let hops := (before.foldl (fun (p : Attr × List Hop) w =>
      if routeBits w 1 0 = 2 then (attrOfWord w, p.2) else (p.1, p.2 ++ [hopOfWord p.1 w])) (startAttr 0x08000000 0x29070000, [])).2
    before.length < 4 ∧ before.all (fun w => decide (routeBits w 1 0 = 1) || (decide (routeBits w 1 0 = 2) && channelOk (attrOfWord w).channel)) = true ∧
    routeBits (3 : RouteWord) 1 0 = 3 ∧ hops.length = 2 ∧
    hops.map (fun h => (h.node, h.spanLoss, h.hopLoss)) = [(1023, 5000, 2000), (44, 0, 0)] ∧
    hops.map (fun h => (h.attr.stamping, h.span)) = [(true, 4094), (true, 4095)] ∧ routeStatus (startAttr 0x08000000 0x29070000) 4 before ≠ .invalid := by
  decide +kernel

/-- R9: with a pool of 8, a record of length 2 and of 48 and 49, a pool bound met and passed, channels 95, 96 and 127. -/
theorem test_record_checks :
    let next := fun (size : Nat) (data : Word) =>
      match routeAdvance { (at_ .running 0) with params := { poolSize := size } } 3 { recWords := [0] } data with
      | .read _ _ => true
      | .done _ => false
    next 8 0x5F020000 = true ∧ next 8 0x5F010000 = false ∧ next 48 0x7F300000 = true ∧ next 64 0x7F310000 = false ∧
    next 8 0x5F020006 = true ∧ next 8 0x5F020007 = false ∧ next 8 0x60020000 = false ∧ next 8 0x7F020000 = true := by decide +kernel

/-- R9: the states of a route read: before word 0x04, before 0x08, before a low word, before a high word that goes on. -/
theorem witness_RouteReadFollowsTheChecks_read :
    let rr : RouteRead := { recWords := [0x08000000, 0x29070000], words := (circuit17Words 1).take 5, low := some 0 }
    ({} : RouteRead).recWords = [] ∧ rr.recWords = 0x08000000 :: 0x29070000 :: [] ∧ rr.low = some 0 ∧
    (match routeStatus (startAttr 0x08000000 0x29070000) 7 ((circuit17Words 1).take 6) with
      | .more _ _ => true
      | .valid _ => false
      | .invalid => false) = true ∧
    7 ≤ (circuit17Words 1).length ∧ route17.low = some 3 := by decide +kernel

/-- R62, R19: an entry owned alone, QUEUED, whose circuit has a pending release, and one without. -/
theorem witness_AbortGivesUpTheEntries_queued :
    let s := fun (r : Release) => setMapEntry 3 { engine := .claimed, release := r, lastVerdict := 1, lastCampaign := 4 }
      { queuedOn 0 .reroute .up .down 1 with
        probes := { (queuedOn 0 .reroute .up .down 1).probes with
          entries := vput (Vector.replicate 64 {}) 9 { state := .queued, circuit := 3, owner := 2, cls := .urgent } } }
    ((s .none).entry 9).state = .queued ∧ ((s .none).entry 9).owner = 2 ∧ ((s .none).entry 9).joiners = [] ∧
    ((s .none).launchSched 0).urgent = [9] ∧ ((s .toReleased).mapEntry 3).release = .toReleased ∧
    ((abortOwned 2 (s .toReleased) 9).mapEntry 3).engine = .released ∧ ((abortOwned 2 (s .none) 9).launchSched 0).urgent = [] := by
  decide +kernel

/-- R48: the slot word of a campaign at the bounds of its fields, and of a FREE slot. -/
theorem witness_CampaignsDrainSummariseAndAreGranted_word :
    let c : Campaign := { id := 255, state := .aborting, origin := .window 63, cursor := 4096 }
    c.state ≠ .free ∧ c.id < 256 ∧ c.origin.index < 64 ∧ c.cursor < 8192 ∧ slotWord {} = 0 ∧
    slotWord c = BitVec.ofNat 32 (255 + 256 * 3 + 1024 * c.origin.kindCode + 4096 * 63 + 262144 * 4096) := by decide +kernel

end Sys2Proof.Tests
end

section
/-! PROOF. What the Custody Unit's operations do, said once: each changes one map entry, the action in flight and the unit's own queue
of accesses, and nothing else (01 R11 to R15). -/

namespace Sys2Proof.Machine

/-! ### The bus responses that end a custody action's reads and writes (10 R178) -/

/-- The last word of a record's reads returns (01 R12). -/
theorem hostWordReadDone_eq (data : Word) (s : State) (a : Action) (got : List Word) (hs : s.readsWith .record)
    (ha : s.custody.action = some a) (hp : a.phase = .reading got) (hl : got.length = 5) (hr : a.req.isLoad = false) :
    exec (.hostWordReadDone data) s = .next (settle (recordDone a (recordWords (got ++ [data])) s.portFreed)) := by
  obtain ⟨r, addr, hport⟩ := hs
  have hlast : endsRecord false s = true := by
    simp [endsRecord, State.portTag, hport, ha, hp, hl, hr, recordOffsets]
  show Host.Outcome.next (endOf (endsRecord false s) data s) = _
  rw [endOf_response _ data s r _ hport hlast, endAccess_read s _ rfl]
  simp [deliver, recordRead, ha, hp, recordOffsets, hl]

/-- The last word of a record's reads returns in the load's custody step (01 R22). -/
theorem loadCustodyReadDone_eq (data : Word) (s : State) (a : Action) (got : List Word) (hs : s.readsWith .record)
    (ha : s.custody.action = some a) (hp : a.phase = .reading got) (hl : got.length = 5) (hr : a.req.isLoad = true) :
    exec (.loadCustodyReadDone data) s = .next (settle (recordDone a (recordWords (got ++ [data])) s.portFreed)) := by
  obtain ⟨r, addr, hport⟩ := hs
  have hlast : endsRecord true s = true := by
    simp [endsRecord, State.portTag, hport, ha, hp, hl, hr, recordOffsets]
  show Host.Outcome.next (endOf (endsRecord true s) data s) = _
  rw [endOf_response _ data s r _ hport hlast, endAccess_read s _ rfl]
  simp [deliver, recordRead, ha, hp, recordOffsets, hl]

/-- The word that decides a route read returns (01 R9). -/
theorem routeReadDone_eq (data : Word) (s : State) (a : Action) (words : RecordWords) (rr : RouteRead) (route : Option Route)
    (hs : s.readsWith .route) (ha : s.custody.action = some a) (hp : a.phase = .routing words rr)
    (hd : routeAdvance s a.req.circuit rr data = .done route) :
    exec (.routeReadDone data) s =
      .next (settle (routeEnd a words ((rr.recWords ++ [data]).getD 0 0) route s.portFreed)) := by
  obtain ⟨r, addr, hport⟩ := hs
  have hlast : endsRoute data s = true := by simp [endsRoute, State.portTag, hport, ha, hp, hd]
  have hfreed : routeAdvance s.portFreed a.req.circuit rr data = .done route := hd
  show Host.Outcome.next (endOf (endsRoute data s) data s) = _
  rw [endOf_response _ data s r _ hport hlast, endAccess_read s _ rfl]
  simp [deliver, routeRead, ha, hp, hfreed]

/-- The last write of an action has reached memory (01 R11). -/
theorem memoryAccessDone_actionEnd (data : Word) (s : State) (r : Requester) (x : Access) (hport : s.master.port = some (r, x))
    (ht : x.tag = .actionEnd) : exec (.memoryAccessDone data) s = .next (settle (actionWritten (endAccess x s))) := by
  show Host.Outcome.next (busResponse data s) = _
  simp [busResponse, hport, ht, deliver]

/-- An action that waits for its writes alone ends with the last of them. -/
theorem actionWritten_finish (s : State) (a : Action) (o : SelectOutcome) (ha : s.custody.action = some a)
    (hp : a.phase = .writing (.finish o)) : actionWritten s = endAction o s := by
  simp [actionWritten, ha, hp]

/-! ### One move of the Custody Unit -/

/-- From `s` to `u` the Custody Unit makes the map entry of circuit `c` be `m` and its action be `a`, hands over the accesses `handed`
in their order, and nothing else changes. -/
structure CustodyMove (c : Nat) (s u : State) (m : MapEntry) (a : Option Action) (handed : List Access) : Prop where
  frame : u = { s with custody := { s.custody with map := u.custody.map, action := a }, master := u.master }
  entry : u.mapEntry c = m
  others : ∀ d, d ≠ c → u.mapEntry d = s.mapEntry d
  queue : u.queue .custody = s.queue .custody ++ handed
  queues : ∀ q, q ≠ .custody → u.queue q = s.queue q
  port : u.master.port = s.master.port

namespace CustodyMove

variable {c : Nat} {s u : State} {m : MapEntry} {a : Option Action} {handed : List Access}

/-- A move reaches the Custody Unit and the queues of accesses alone. -/
theorem within (h : CustodyMove c s u m a handed) : u = { s with custody := u.custody, master := u.master } := by
  rw [h.frame]

theorem action (h : CustodyMove c s u m a handed) : u.custody.action = a := congrArg (·.custody.action) h.frame

theorem hostSide (h : CustodyMove c s u m a handed) : u.hostSide = s.hostSide := by rw [h.frame]; rfl

theorem reader (h : CustodyMove c s u m a handed) : u.reader = s.reader := congrArg (·.reader) h.frame

theorem loader (h : CustodyMove c s u m a handed) : u.loader = s.loader := congrArg (·.loader) h.frame

theorem regs (h : CustodyMove c s u m a handed) : u.regs = s.regs := congrArg (·.regs) h.frame

theorem params (h : CustodyMove c s u m a handed) : u.params = s.params := congrArg (·.params) h.frame

theorem sched (h : CustodyMove c s u m a handed) : u.sched = s.sched := congrArg (·.sched) h.frame

/-- A change of the map entry before a move belongs to the move. -/
theorem after_setMapEntry {e : MapEntry} (h : CustodyMove c (setMapEntry c e s) u m a handed) : CustodyMove c s u m a handed where
  frame := h.frame
  entry := h.entry
  others d hd := (h.others d hd).trans (by rw [setMapEntry_mapEntry, if_neg hd])
  queue := h.queue
  queues := h.queues
  port := h.port

end CustodyMove

@[simp] theorem setMapEntry_mapEntry_same (c : Nat) (e : MapEntry) (s : State) : (setMapEntry c e s).mapEntry c = e := by
  rw [setMapEntry_mapEntry, if_pos rfl]

theorem setPhase_eq (p : ActionPhase) (s : State) (a : Action) (ha : s.custody.action = some a) :
    setPhase p s = setAction (some { a with phase := p }) s := by
  simp [setPhase, ha]

/-- A move that touches the action alone. -/
theorem setAction_move (c : Nat) (a : Option Action) (s : State) : CustodyMove c s (setAction a s) (s.mapEntry c) a [] where
  frame := rfl
  entry := rfl
  others _ _ := rfl
  queue := (List.append_nil _).symm
  queues _ _ := rfl
  port := rfl

/-- The map entry set and the action ended. -/
theorem setEntry_none_move (c : Nat) (m : MapEntry) (s : State) : CustodyMove c s (setAction none (setMapEntry c m s)) m none [] := by
  have h := (setAction_move c none (setMapEntry c m s)).after_setMapEntry
  rwa [setMapEntry_mapEntry_same] at h

/-- One more access handed over. -/
theorem CustodyMove.hand {c : Nat} {s u : State} {m : MapEntry} {a : Option Action} {handed : List Access}
    (h : CustodyMove c s u m a handed) (x : Access) : CustodyMove c s (hand .custody x u) m a (handed ++ [x]) where
  frame := by rw [h.frame]; rfl
  entry := h.entry
  others := h.others
  queue := by rw [hand_queue, h.queue, List.append_assoc]
  queues q hq := by rw [hand_queue_of, if_neg hq, h.queues q hq]
  port := h.port

/-- One more word of the record read. -/
theorem CustodyMove.read {c : Nat} {s u : State} {m : MapEntry} {a : Option Action} {handed : List Access}
    (h : CustodyMove c s u m a handed) (o : Nat) (tag : Tag) :
    CustodyMove c s (handRead .custody (recordAddr s c o) tag u) m a (handed ++ [⟨recordAddr s c o, none, tag⟩]) :=
  h.hand _

/-- One more word of the record written. -/
theorem CustodyMove.write {c : Nat} {s u : State} {m : MapEntry} {a : Option Action} {handed : List Access}
    (h : CustodyMove c s u m a handed) (o : Nat) (w : Word) (tag : Tag) :
    CustodyMove c s (handWrite .custody (recordAddr u c o) w tag u) m a (handed ++ [⟨recordAddr s c o, some w, tag⟩]) := by
  have hp : recordAddr u c o = recordAddr s c o := by simp only [recordAddr, h.params]
  rw [hp]
  exact h.hand _

/-- The action goes on to a phase. -/
theorem setPhase_move (c : Nat) (p : ActionPhase) (s : State) (a : Action) (ha : s.custody.action = some a) :
    CustodyMove c s (setPhase p s) (s.mapEntry c) (some { a with phase := p }) [] := by
  rw [setPhase_eq p s a ha]
  exact setAction_move c _ s

/-- The map entry is set and the action goes on to a phase. -/
theorem setEntry_move (c : Nat) (m : MapEntry) (p : ActionPhase) (s : State) (a : Action) (ha : s.custody.action = some a) :
    CustodyMove c s (setPhase p (setMapEntry c m s)) m (some { a with phase := p }) [] := by
  have h := (setPhase_move c p (setMapEntry c m s) a ha).after_setMapEntry
  rwa [setMapEntry_mapEntry_same] at h

/-! ### The operations as moves (01 R11 to R15) -/

/-- An action begins with the read of its record's host word. -/
theorem beginAction_move (c : Nat) (req : CustodyReq) (s : State) :
    CustodyMove c s (beginAction req s) (s.mapEntry c) (some { req := req, phase := .reading [] })
      [⟨recordAddr s req.circuit 0x00, none, .record⟩] :=
  (setAction_move c _ s).hand _

/-- A route read begins with record word 0x04. -/
theorem beginRoute_move (c : Nat) (words : RecordWords) (s : State) (a : Action) (ha : s.custody.action = some a) :
    CustodyMove c s (beginRoute c words s) (s.mapEntry c) (some { a with phase := .routing words {} })
      [⟨recordAddr s c 0x04, none, .route⟩] :=
  (setPhase_move c (.routing words {}) s a ha).read 0x04 .route

/-- A move writes the engine word of its map entry. -/
theorem engineWordWrite_move (c : Nat) {tag : Tag} (s u : State) (m : MapEntry) (a : Option Action) (h : CustodyMove c s u m a []) :
    CustodyMove c s (engineWordWrite c tag u) m a
      [⟨recordAddr s c 0x0C, some (engineWord m.engine m.lastVerdict m.lastCampaign), tag⟩] := by
  simp only [engineWordWrite, h.entry]
  exact h.write _ _ _

/-- A transition to IGNORED or RELEASED writes the engine word with its verdict and campaign id as they were. -/
theorem becomeState_move (c : Nat) (e : EngineState) (s : State) (a : Action) (ha : s.custody.action = some a) :
    CustodyMove c s (becomeState c e s) { s.mapEntry c with engine := e } (some { a with phase := .writing (.finish .notWatched) })
      [⟨recordAddr s c 0x0C, some (engineWord e (s.mapEntry c).lastVerdict (s.mapEntry c).lastCampaign), .actionEnd⟩] :=
  engineWordWrite_move c s _ _ _ (setEntry_move c _ _ s a ha)

/-- A rejection or an illegal edit: the captured revision, then the engine word. -/
theorem reject_move (c : Nat) (words : RecordWords) (v : Verdict) (ids : List Nat) (o : SelectOutcome) (s : State) (a : Action)
    (ha : s.custody.action = some a) :
    CustodyMove c s (reject c words v ids o s)
      { engine := .rejected, lastVerdict := v.code, lastCampaign := ids.headD 0 }
      (some { a with phase := .writing (.journal (hostRevision words.host) v (baselineOfWord words.baseline) ids o) })
      [⟨recordAddr s c 0x10, some (field (hostRevision words.host) 16 0), .plain⟩,
        ⟨recordAddr s c 0x0C, some (engineWord .rejected v.code (ids.headD 0)), .actionEnd⟩] :=
  ((setEntry_move c _ _ s a ha).write 0x10 _ .plain).write 0x0C _ .actionEnd

/-! ### Acceptance (01 R13 R22) -/

theorem shownDiffers_iff (words : RecordWords) (e : MapEntry) :
    shownDiffers words e = true ↔ bits words.engine 2 0 ≠ e.engine.code := decide_eq_true_iff

section Accept

variable (c : Nat) (words : RecordWords) (isLoad : Bool) (o : SelectOutcome) (s : State) (a : Action)

/-- Where the engine word is written, an acceptance hands it over last, after the two words of a changed revision. -/
theorem accept_move_word (ha : s.custody.action = some a) (hw : ¬ (isLoad = true ∧ bits words.engine 2 0 = 1)) :
    CustodyMove c s (accept c words isLoad o s) { s.mapEntry c with engine := .watched, release := .none }
      (some { a with phase := .writing (.finish o) })
      ((if hostRevision words.host = bits words.captured 15 0 then []
        else [⟨recordAddr s c 0x14, some 0, .plain⟩, ⟨recordAddr s c 0x10, some (field (hostRevision words.host) 16 0), .plain⟩]) ++
        [⟨recordAddr s c 0x0C, some (engineWord .watched (s.mapEntry c).lastVerdict (s.mapEntry c).lastCampaign), .actionEnd⟩]) := by
  have h := setEntry_move c { s.mapEntry c with engine := .watched, release := .none } (.writing (.finish o)) s a ha
  have hd : (isLoad && !shownDiffers words { s.mapEntry c with engine := .watched, release := .none }) = false := by
    rw [Bool.and_eq_false_imp]
    intro hl
    rw [Bool.not_eq_false', shownDiffers_iff]
    exact fun hb => hw ⟨hl, hb⟩
  by_cases hr : hostRevision words.host = bits words.captured 15 0
  · simpa [accept, hr, hd, recordWrites] using h.write 0x0C _ .actionEnd
  · simpa [accept, hr, hd, recordWrites, baselineWord] using ((h.write 0x14 0 .plain).write 0x10 _ .plain).write 0x0C _ .actionEnd

/-- At a load that showed WATCHED, the two words of a changed revision alone are written. -/
theorem accept_move_revision (ha : s.custody.action = some a) (hl : isLoad = true) (hw : bits words.engine 2 0 = 1)
    (hr : hostRevision words.host ≠ bits words.captured 15 0) :
    CustodyMove c s (accept c words isLoad o s) { s.mapEntry c with engine := .watched, release := .none }
      (some { a with phase := .writing (.finish o) })
      [⟨recordAddr s c 0x14, some 0, .plain⟩, ⟨recordAddr s c 0x10, some (field (hostRevision words.host) 16 0), .actionEnd⟩] := by
  have h := setEntry_move c { s.mapEntry c with engine := .watched, release := .none } (.writing (.finish o)) s a ha
  simpa [accept, hr, hl, hw, shownDiffers, EngineState.code, recordWrites, baselineWord] using
    (h.write 0x14 0 .plain).write 0x10 _ .actionEnd

/-- At a load that showed WATCHED with the revision captured, nothing is written and the action ends. -/
theorem accept_nothing (hl : isLoad = true) (hw : bits words.engine 2 0 = 1)
    (hr : hostRevision words.host = bits words.captured 15 0) :
    accept c words isLoad o s = endAction o (setMapEntry c { s.mapEntry c with engine := .watched, release := .none } s) := by
  simp [accept, hr, hl, hw, shownDiffers, EngineState.code]

end Accept

/-! ### The end of an action (01 R11) -/

theorem endAction_sweep (o : SelectOutcome) (s : State) (a : Action) (c : Nat) (ha : s.custody.action = some a)
    (hr : a.req = .sweep c) : endAction o s = sweepNext (setAction none s) := by
  simp [endAction, ha, hr]

theorem endAction_load (o : SelectOutcome) (s : State) (a : Action) (c : Nat) (ha : s.custody.action = some a)
    (hr : a.req = .load c) : endAction o s = loadNext (setAction none s) := by
  simp [endAction, ha, hr]

theorem endAction_select (o : SelectOutcome) (s : State) (a : Action) (i : Fin 8) (id c : Nat) (live : Bool)
    (ha : s.custody.action = some a) (hr : a.req = .select i id c live) :
    endAction o s = if live then stepOutcome i o (setAction none s) else setAction none s := by
  simp [endAction, ha, hr]

/-! ### The table of the host-word action (01 R12 R22) -/

section Table

variable (isLoad same : Bool) (req : HostRequest) (e : EngineState)

theorem hostAction_claimed : hostAction isLoad req .claimed same = .release := by cases req <;> rfl

theorem hostAction_vacant (hc : e ≠ .claimed) (hi : e ≠ .ignored) : hostAction isLoad .vacant e same = .become .ignored := by
  cases e <;> first | rfl | contradiction

theorem hostAction_recall (h : e = .watched ∨ e = .rejected) : hostAction isLoad .recall e same = .become .released := by
  rcases h with rfl | rfl <;> rfl

theorem hostAction_validate (h : e = .ignored ∨ e = .released ∨ (e = .rejected ∧ same = false)) :
    hostAction isLoad .active e same = .validate := by
  rcases h with rfl | rfl | ⟨rfl, rfl⟩ <;> rfl

theorem hostAction_stay (h : (e = .ignored ∧ req ≠ .active) ∨ (e = .released ∧ req = .recall) ∨
    (e = .rejected ∧ req = .active ∧ same = true)) : hostAction isLoad req e same = .stay := by
  rcases h with ⟨rfl, h⟩ | ⟨rfl, rfl⟩ | ⟨rfl, rfl, rfl⟩
  · cases req <;> first | rfl | contradiction
  · rfl
  · rfl

end Table

end Sys2Proof.Machine
end

section
/-! PROOF. The end of an action's record reads by the table of 01 R12, what a sweep does next (01 R20, 02 R32, 09 R161), and the
request that has waited longest (01 R11). -/

namespace Sys2Proof.Machine

/-! ### The end of a record's reads (01 R12) -/

section Record

variable (a : Action) (words : RecordWords) (s : State)

/-- What 01 R12's table says for an action at the end of its record reads. -/
def Action.decision (a : Action) (words : RecordWords) (s : State) : HostAction :=
  hostAction a.req.isLoad (hostRequest words.host) (s.mapEntry a.req.circuit).engine
    (decide (hostRevision words.host = bits words.captured 15 0))

/-- No release to apply: the table's decision is followed on the map as it stands. -/
theorem applyRecord_follow (hc : a.req.isCompare = false) (hr : a.decision words s ≠ .release ∨ a.req.isSelect = true) :
    applyRecord a words s = followHostAction a words (a.decision words s) s := by
  have hno : ¬ (a.decision words s = .release ∧ a.req.isSelect = false) := by
    rintro ⟨h, h'⟩
    rcases hr with hr | hr
    · exact hr h
    · rw [h'] at hr; cases hr
  simp only [Action.decision] at hno ⊢
  simp only [applyRecord, if_neg hno]
  generalize a.req = req at hc
  cases req <;> first | rfl | cases hc

/-- A CLAIMED circuit of a sweep or a load takes its pending release. -/
theorem applyRecord_release (hc : a.req.isCompare = false) (hs : a.req.isSelect = false) (hd : a.decision words s = .release) :
    applyRecord a words s = afterHostAction a words (setRelease a.req.circuit (releaseFor (hostRequest words.host)) s) := by
  simp only [Action.decision] at hd
  simp only [applyRecord, hd, hs, and_self, if_true, followHostAction]
  generalize a.req = req at hc
  cases req <;> first | rfl | cases hc

theorem applyRecord_become (e : EngineState) (ha : s.custody.action = some a) (hc : a.req.isCompare = false)
    (hd : a.decision words s = .become e) :
    CustodyMove a.req.circuit s (applyRecord a words s) { s.mapEntry a.req.circuit with engine := e }
      (some { a with phase := .writing (.finish .notWatched) })
      [⟨recordAddr s a.req.circuit 0x0C,
        some (engineWord e (s.mapEntry a.req.circuit).lastVerdict (s.mapEntry a.req.circuit).lastCampaign), .actionEnd⟩] := by
  rw [applyRecord_follow a words s hc (by simp [hd]), hd]
  exact becomeState_move _ _ s a ha

theorem applyRecord_validate (ha : s.custody.action = some a) (hc : a.req.isCompare = false)
    (hd : a.decision words s = .validate) :
    CustodyMove a.req.circuit s (applyRecord a words s) (s.mapEntry a.req.circuit) (some { a with phase := .routing words {} })
      [⟨recordAddr s a.req.circuit 0x04, none, .route⟩] := by
  rw [applyRecord_follow a words s hc (by simp [hd]), hd]
  exact beginRoute_move _ _ s a ha

theorem applyRecord_edit (ha : s.custody.action = some a) (hc : a.req.isCompare = false)
    (hd : a.decision words s = .illegalEdit) :
    CustodyMove a.req.circuit s (applyRecord a words s)
      { engine := .rejected, lastVerdict := Verdict.edited.code, lastCampaign := a.req.campaigns.headD 0 }
      (some { a with
        phase := .writing (.journal (hostRevision words.host) .edited (baselineOfWord words.baseline) a.req.campaigns .notWatched) })
      [⟨recordAddr s a.req.circuit 0x10, some (field (hostRevision words.host) 16 0), .plain⟩,
        ⟨recordAddr s a.req.circuit 0x0C, some (engineWord .rejected Verdict.edited.code (a.req.campaigns.headD 0)), .actionEnd⟩] := by
  rw [applyRecord_follow a words s hc (by simp [hd]), hd]
  exact reject_move _ _ _ _ _ s a ha

theorem applyRecord_stay (hc : a.req.isCompare = false) (hd : a.decision words s = .stay) :
    applyRecord a words s = afterHostAction a words s := by
  rw [applyRecord_follow a words s hc (by simp [hd]), hd]
  rfl

/-- Every row of the table moves the Custody Unit, or leaves the engine state as it is. -/
theorem applyRecord_cases (ha : s.custody.action = some a) (hc : a.req.isCompare = false) :
    (∃ m b handed, CustodyMove a.req.circuit s (applyRecord a words s) m b handed) ∨
    applyRecord a words s = afterHostAction a words s ∨
    (∃ r, a.req.isSelect = false ∧ applyRecord a words s = afterHostAction a words (setRelease a.req.circuit r s)) := by
  cases hd : a.decision words s with
  | stay => exact .inr (.inl (applyRecord_stay a words s hc hd))
  | become e => exact .inl ⟨_, _, _, applyRecord_become a words s e ha hc hd⟩
  | validate => exact .inl ⟨_, _, _, applyRecord_validate a words s ha hc hd⟩
  | illegalEdit => exact .inl ⟨_, _, _, applyRecord_edit a words s ha hc hd⟩
  | release =>
    cases hs : a.req.isSelect with
    | true =>
      refine .inr (.inl ?_)
      rw [applyRecord_follow a words s hc (.inr hs), hd]
      rfl
    | false => exact .inr (.inr ⟨_, rfl, applyRecord_release a words s hc hs hd⟩)

end Record

/-- An action whose map entry was changed since it began is begun again (01 R11). -/
theorem recordDone_disturbed (a : Action) (words : RecordWords) (s : State) (h : a.disturbed = true) :
    recordDone a words s = beginAction a.req s := by simp [recordDone, h]

theorem recordDone_undisturbed (a : Action) (words : RecordWords) (s : State) (h : a.disturbed = false)
    (hl : a.req.isLoad = false) : recordDone a words s = applyRecord a words s := by simp [recordDone, h, hl]

theorem recordDone_load (a : Action) (words : RecordWords) (s : State) (h : a.disturbed = false) (hl : a.req.isLoad = true) :
    recordDone a words s = applyRecord a words (setMapEntry a.req.circuit (mapEntryOfWord words.engine) s) := by
  simp [recordDone, h, hl]

theorem afterHostAction_sweep (a : Action) (words : RecordWords) (s : State) (c : Nat) (ha : s.custody.action = some a)
    (hr : a.req = .sweep c) : afterHostAction a words s = sweepNext (setAction none s) := by
  rw [← endAction_sweep .notWatched s a c ha hr]
  simp [afterHostAction, hr]

/-! ### What a sweep does next (01 R20, 09 R161) -/

/-- The sweep as its window part begins. -/
def windowsBegin (s : State) : State := { s with reader := { s.reader with sweep := .windows, window := 0 } }

/-- After the last circuit, the first window whose phase calls for a read. -/
theorem sweepNext_refresh (s : State) (w : Fin 64) (k : RefreshKind) (hr : s.run = .running) (hs : s.reader.sweep = .custody)
    (h : s.params.circuitCount ≤ s.reader.circuit + 1) (hw : nextRefresh (windowsBegin s) = some (w, k)) :
    sweepNext s = handRead .window (addrOf s.params.windowList (96 * w.val + 0x00)) .refresh
      { s with
        reader := { s.reader with sweep := .windows, window := w.val }
        sched := { s.sched with refresh := some { window := w, kind := k } } } := by
  have first : (refreshOffsets k).getD 0 0 = 0 := by cases k <;> rfl
  rw [sweepNext_last s hr hs h]
  exact (goOnWindows_refresh (windowsBegin s) w k hw).trans (by rw [first]; rfl)

/-- After the last circuit, with no window to read, the control word of the request at the next index. -/
theorem sweepNext_scan (s : State) (hr : s.run = .running) (hs : s.reader.sweep = .custody)
    (h : s.params.circuitCount ≤ s.reader.circuit + 1) (hw : nextRefresh (windowsBegin s) = none) :
    sweepNext s = handRead .request (addrOf s.params.requestList (48 * s.reader.nextIndex + 0)) .reqControl
      { s with
        reader := { s.reader with sweep := .requests, window := 0, stage := .control, processed := 0 }
        sched := { s.sched with refresh := none } } := by
  rw [sweepNext_last s hr hs h]
  exact goOnWindows_scan (windowsBegin s) hw

/-- The end of a sweep's action leaves the state, asks for the next circuit, or hands over the first read of another part. -/
theorem sweepNext_cases (s : State) :
    sweepNext s = s ∨
    (∃ c, sweepNext s = askCustody (.sweep c) (modReader (fun r => { r with circuit := c }) s)) ∨
    (∃ q addr tag reader refresh, q ≠ Requester.custody ∧
      sweepNext s = handRead q addr tag { s with reader := reader, sched := { s.sched with refresh := refresh } }) := by
  by_cases h : s.run = .running ∧ s.reader.sweep = .custody
  · by_cases hn : s.reader.circuit + 1 < s.params.circuitCount
    · exact .inr (.inl ⟨_, sweepNext_circuit s h.1 h.2 hn⟩)
    · cases hw : nextRefresh (windowsBegin s) with
      | none => exact .inr (.inr ⟨_, _, _, _, _, by decide, sweepNext_scan s h.1 h.2 (by omega) hw⟩)
      | some x => exact .inr (.inr ⟨_, _, _, _, _, by decide, sweepNext_refresh s x.1 x.2 h.1 h.2 (by omega) hw⟩)
  · exact .inl (sweepNext_outside s (by tauto))

/-- The end of a sweep's action changes the Custody Unit's requests, the reader, the refresh and the queues of accesses alone. -/
theorem sweepNext_frame (s : State) :
    sweepNext s = { s with
      custody := { s.custody with queue := (sweepNext s).custody.queue }, master := (sweepNext s).master
      reader := (sweepNext s).reader, sched := { s.sched with refresh := (sweepNext s).sched.refresh } } := by
  rcases sweepNext_cases s with h | ⟨c, h⟩ | ⟨q, addr, tag, reader, refresh, -, h⟩ <;> rw [h] <;> rfl

theorem sweepNext_mapEntry (s : State) (c : Nat) : (sweepNext s).mapEntry c = s.mapEntry c := by
  rw [sweepNext_frame]; rfl

/-- It hands over no access of the Custody Unit. -/
theorem sweepNext_queue_custody (s : State) : (sweepNext s).queue .custody = s.queue .custody := by
  rcases sweepNext_cases s with h | ⟨c, h⟩ | ⟨q, addr, tag, reader, refresh, hq, h⟩ <;> rw [h]
  · rfl
  · exact (handRead_queue_of _ _ _ _ _).trans (if_neg hq.symm)

/-! ### Which window the window part reads first (02 R32) -/

/-- A search of a filtered list is one search with both tests. -/
theorem pick_filter {α : Type} (p q : α → Bool) (l : List α) : pick p (l.filter q) = pick (fun x => q x && p x) l := by
  induction l with
  | nil => rfl
  | cons x l ih =>
    cases hq : q x <;> cases hp : p x <;> simp [pick, hq, hp, ih]

/-- A window that the window part still reads: counted, not yet passed, and in a phase that calls for a read. -/
def State.callsForRead (s : State) (w : Fin 64) : Bool :=
  decide (w.val < s.params.windowCount) && (decide (s.reader.window ≤ w.val) && (refreshKind (s.window w).phase).isSome)

theorem nextRefresh_eq (s : State) : nextRefresh s =
    match pick s.callsForRead (List.finRange 64) with
    | some w => (refreshKind (s.window w).phase).map (fun k => (w, k))
    | none => none := by
  unfold nextRefresh State.windowIndices
  rw [pick_filter]
  rfl

theorem callsForRead_iff (s : State) (w : Fin 64) : s.callsForRead w = true ↔
    w.val < s.params.windowCount ∧ s.reader.window ≤ w.val ∧
      (s.window w).phase ≠ .settling ∧ (s.window w).phase ≠ .queued ∧ (s.window w).phase ≠ .verifying := by
  have kinds : ∀ p : Phase, (refreshKind p).isSome = true ↔ p ≠ .settling ∧ p ≠ .queued ∧ p ≠ .verifying := by
    intro p; cases p <;> decide
  simp [State.callsForRead, kinds]

theorem refreshKind_of_calls (p : Phase) (h : p ≠ .settling ∧ p ≠ .queued ∧ p ≠ .verifying) :
    refreshKind p = some (if p = .opened then .armAndClose else if p = .finished then .armOnly else .full) := by
  obtain ⟨h1, h2, h3⟩ := h
  cases p <;> first | rfl | contradiction

/-! ### The request that has waited longest (01 R11) -/

/-- The requests that arrived with the oldest one stand at the head of the queue. -/
theorem oldestRequests_split (n : Nat) (req : CustodyReq) (rest : List (Nat × CustodyReq)) :
    ∃ same later, (n, req) :: rest = same ++ later ∧ same.length = oldestRequests ((n, req) :: rest) ∧ ∀ x ∈ same, x.1 = n := by
  refine ⟨(n, req) :: rest.takeWhile (fun x => x.1 == n), rest.dropWhile (fun x => x.1 == n), ?_, ?_, ?_⟩
  · rw [List.cons_append, List.takeWhile_append_dropWhile]
  · simp [oldestRequests, Nat.add_comm]
  · intro x hx
    rcases List.mem_cons.1 hx with rfl | hx
    · rfl
    · simpa using List.mem_takeWhile_imp hx

/-- A list around the element at an index. -/
theorem exists_split_at {α : Type} (l : List α) (i : Nat) (h : i < l.length) :
    ∃ before x after, l = before ++ x :: after ∧ before.length = i ∧ l[i]? = some x ∧ l.eraseIdx i = before ++ after := by
  refine ⟨l.take i, l[i], l.drop (i + 1), ?_, by simp; omega, List.getElem?_eq_getElem h, List.eraseIdx_eq_take_drop_succ l i⟩
  rw [List.getElem_cons_drop h, List.take_append_drop]

/-- The idle unit begins one of the requests that arrived with the oldest; the others keep their order. -/
theorem serveCustody_begins (s : State) (n : Nat) (req : CustodyReq) (rest : List (Nat × CustodyReq))
    (ha : s.custody.action = none) (hr : s.run = .running ∨ s.run = .stopping) (hq : s.custody.queue = (n, req) :: rest) :
    ∃ before r after count, s.custody.queue = before ++ (n, r) :: after ∧ (∀ x ∈ before, x.1 = n) ∧
      serveCustody s =
        beginAction r { s with custody := { s.custody with queue := before ++ after }, freeCount := count } := by
  obtain ⟨same, later, hsplit, hlen, hall⟩ := oldestRequests_split n req rest
  have hpos : 1 ≤ same.length := by rw [hlen]; exact Nat.le_add_right 1 _
  let i := if same.length ≤ 1 then 0 else Config.custodyTie s.freeCount % same.length
  have hi : i < same.length := by
    show (if _ then _ else _) < _
    split
    · omega
    · exact Nat.mod_lt _ (by omega)
  obtain ⟨before, x, after, hx, hbefore, hget, herase⟩ := exists_split_at same i hi
  have hn : x.1 = n := hall x (by simp [hx])
  have hget' : s.custody.queue[i]? = some (n, x.2) := by
    rw [hq, hsplit, List.getElem?_append_left hi, hget, ← hn]
  have herase' : s.custody.queue.eraseIdx i = before ++ (after ++ later) := by
    rw [hq, hsplit, List.eraseIdx_append_of_lt_length hi, herase, List.append_assoc]
  refine ⟨before, x.2, after ++ later, if same.length ≤ 1 then s.freeCount else s.freeCount + 1, ?_, ?_, ?_⟩
  · rw [hq, hsplit, hx, ← hn, List.append_assoc, List.cons_append]
  · exact fun y hy => hall y (by simp [hx, hy])
  · unfold serveCustody
    rw [if_pos ⟨ha, hr⟩]
    have hold : oldestRequests s.custody.queue = same.length := by rw [hq, hlen]
    simp only [hold]
    show (match s.custody.queue[i]? with
      | some (_, r) => _
      | none => s) = _
    rw [hget']
    show beginAction x.2 (if same.length ≤ 1 then _ else
      useFree { s with custody := { s.custody with queue := s.custody.queue.eraseIdx i } }) = _
    rw [herase']
    congr 1
    split <;> rfl

/-- Where the request after the oldest arrived at another event, no request is passed over. -/
theorem nothing_before_alone {n : Nat} {req r : CustodyReq} {rest before after : List (Nat × CustodyReq)}
    (h : (n, req) :: rest = before ++ (n, r) :: after) (hb : ∀ x ∈ before, x.1 = n) (halone : ∀ x ∈ rest.head?, x.1 ≠ n) :
    before = [] := by
  cases before with
  | nil => rfl
  | cons b bs =>
    obtain ⟨-, rfl⟩ := List.cons.inj h
    cases bs with
    | nil => exact absurd rfl (halone (n, r) rfl)
    | cons y ys => exact absurd (hb y (by simp)) (halone y rfl)

/-! ### A sweep's action at the end of its record reads (01 R12 R20) -/

/-- A CLAIMED circuit takes its pending release, and the sweep's action ends. -/
theorem sweepRecord_release (a : Action) (words : RecordWords) (s : State) (c : Nat) (ha : s.custody.action = some a)
    (hr : a.req = .sweep c) (hd : a.decision words s = .release) :
    applyRecord a words s = sweepNext (setAction none (setRelease c (releaseFor (hostRequest words.host)) s)) := by
  have h := applyRecord_release a words s (by rw [hr]; rfl) (by rw [hr]; rfl) hd
  rw [hr] at h
  exact h.trans (afterHostAction_sweep a words _ c ha hr)

/-- Nothing to do: the sweep's action ends. -/
theorem sweepRecord_stay (a : Action) (words : RecordWords) (s : State) (c : Nat) (ha : s.custody.action = some a)
    (hr : a.req = .sweep c) (hd : a.decision words s = .stay) : applyRecord a words s = sweepNext (setAction none s) :=
  (applyRecord_stay a words s (by rw [hr]; rfl) hd).trans (afterHostAction_sweep a words s c ha hr)

/-- What a sweep's action makes of the part at the end of its record reads: a move of the Custody Unit, or a move that ends the action. -/
theorem sweepRecord_cases (a : Action) (words : RecordWords) (s : State) (c : Nat) (ha : s.custody.action = some a)
    (hr : a.req = .sweep c) :
    (∃ m b handed, CustodyMove c s (recordDone a words s) m b handed) ∨
    ∃ t m, recordDone a words s = sweepNext t ∧ CustodyMove c s t m none [] := by
  cases hd : a.disturbed with
  | true => exact .inl ⟨_, _, _, by rw [recordDone_disturbed a words s hd]; exact beginAction_move c a.req s⟩
  | false =>
    rw [recordDone_undisturbed a words s hd (by rw [hr]; rfl)]
    rcases applyRecord_cases a words s ha (by rw [hr]; rfl) with h | h | ⟨r, -, h⟩
    · rw [hr] at h; exact .inl h
    · exact .inr ⟨_, _, h.trans (afterHostAction_sweep a words s c ha hr), setAction_move c none s⟩
    · rw [hr] at h
      exact .inr ⟨_, _, h.trans (afterHostAction_sweep a words _ c ha hr), setEntry_none_move c _ s⟩

/-- A sweep's action reaches the Custody Unit, the reader, the refresh and the queues of accesses alone. -/
theorem sweepAction_frame (c : Nat) (s u : State)
    (h : (∃ m b handed, CustodyMove c s u m b handed) ∨ ∃ t m, u = sweepNext t ∧ CustodyMove c s t m none []) :
    u = { s with custody := u.custody, master := u.master, reader := u.reader, sched := u.sched } ∧
    u.sched = { s.sched with refresh := u.sched.refresh } ∧ u.hostSide = s.hostSide ∧
    ∀ d, d ≠ c → u.mapEntry d = s.mapEntry d := by
  rcases h with ⟨m, b, handed, h⟩ | ⟨t, m, rfl, h⟩
  · refine ⟨?_, h.sched ▸ rfl, h.hostSide, h.others⟩
    rw [h.within]
  · refine ⟨?_, ?_, ?_, fun d hd => ?_⟩
    · rw [sweepNext_frame, h.within]
    · rw [sweepNext_frame, h.sched]
    · rw [hostSide_eq, sweepNext_surround]; exact h.hostSide
    · rw [sweepNext_mapEntry, h.others d hd]

theorem releaseFor_eq (req : HostRequest) :
    releaseFor req = if req = .active then Release.none else if req = .recall then .toReleased else .toIgnored := by
  cases req <;> rfl

end Sys2Proof.Machine

open Sys2Proof Sys2Proof.Machine

/-- Settles O36: the rows of the table of 01 R12 as moves of the Custody Unit, the sweep's next read, and the oldest request. -/
theorem hostWordActionFollowsTheTable : Obligations.HostWordActionFollowsTheTable := by
  refine ⟨?_, ?_, ?_, ?_, ?_⟩
  · intro data s c got disturbed hs ha hl words req rev e same write word
    have hcases := sweepRecord_cases _ words s.portFreed c ha rfl
    obtain ⟨hframe, hsched, hhost, hothers⟩ := sweepAction_frame c s.portFreed _ hcases
    obtain ⟨hkeep, hbytes⟩ := settle_keeps hhost
    refine ⟨_, hostWordReadDone_eq data s _ got hs ha rfl hl rfl, hframe, hsched, hkeep, hbytes, hothers, ?_, ?_⟩
    · rintro rfl
      rw [recordDone_disturbed _ _ _ rfl]
      have h := beginAction_move c (.sweep c) s.portFreed
      exact ⟨h.entry, h.action, h.queue⟩
    · rintro rfl
      rw [recordDone_undisturbed _ _ _ rfl rfl]
      let a : Machine.Action := { req := .sweep c, phase := .reading got }
      have hdec : ∀ d, hostAction false req e.engine (decide same) = d → a.decision words s.portFreed = d := fun d hd => hd
      refine ⟨fun he => ?_, fun hreq hc hi => ?_, fun hreq he => ?_, fun hreq he hsame => ?_, fun hreq he => ?_, fun he => ?_⟩
      · have hd := hdec .release (by rw [he]; exact hostAction_claimed _ _ _)
        have h := setEntry_none_move c { e with release := releaseFor req } s.portFreed
        rw [sweepRecord_release a words s.portFreed c ha rfl hd, sweepNext_mapEntry, sweepNext_queue_custody]
        refine ⟨?_, rfl, ?_⟩
        · rw [← releaseFor_eq]; exact h.entry
        · exact congrArg (fun m => sweepNext (setAction none (setMapEntry c m s.portFreed))) h.entry.symm
      · have h := applyRecord_become a words s.portFreed .ignored ha rfl (hdec _ (by rw [hreq]; exact hostAction_vacant _ _ _ hc hi))
        exact ⟨h.entry, h.action, h.queue⟩
      · have h := applyRecord_become a words s.portFreed .released ha rfl (hdec _ (by rw [hreq]; exact hostAction_recall _ _ _ he))
        exact ⟨h.entry, h.action, h.queue⟩
      · have h := applyRecord_edit a words s.portFreed ha rfl (hdec _ (by rw [hreq, he, decide_eq_false hsame]; rfl))
        exact ⟨h.entry, h.action, h.queue⟩
      · have hv : e.engine = .ignored ∨ e.engine = .released ∨ e.engine = .rejected ∧ decide same = false := by
          simpa using he
        have h := applyRecord_validate a words s.portFreed ha rfl (hdec _ (by rw [hreq]; exact hostAction_validate _ _ _ hv))
        exact ⟨h.entry, h.action, h.queue⟩
      · have hstay : hostAction false req e.engine (decide same) = .stay := by
          rcases he with ⟨he, hreq⟩ | ⟨he, hreq⟩ | ⟨he | he, hreq, hsame⟩
          · exact hostAction_stay _ _ _ _ (.inl ⟨he, hreq⟩)
          · exact hostAction_stay _ _ _ _ (.inr (.inl ⟨he, hreq⟩))
          · exact hostAction_stay _ _ _ _ (.inr (.inr ⟨he, hreq, decide_eq_true hsame⟩))
          · rw [he, hreq, decide_eq_true hsame]; rfl
        rw [sweepRecord_stay a words s.portFreed c ha rfl (hdec _ hstay), sweepNext_mapEntry, sweepNext_queue_custody]
        exact ⟨rfl, rfl, rfl⟩
  · intro data s r x a c o hport ht ha hr hp
    have hp' : (endAccess x s).custody.action = some a := ha
    rw [memoryAccessDone_actionEnd data s r x hport ht, actionWritten_finish _ a o hp' hp, endAction_sweep o _ a c hp' hr]
  · intro s next t windows
    refine ⟨sweepNext_outside s, fun hr hs h => sweepNext_circuit s hr hs h, fun hr hs h => ⟨fun w k hw => ?_, fun hw => ?_⟩⟩
    · have ht : t = _ := sweepNext_refresh s w k hr hs h hw
      rw [ht]
      exact ⟨rfl, rfl, handRead_queue_of _ _ _ _ _, fun q hq => (handRead_queue_of _ _ _ _ _).trans (if_neg hq)⟩
    · have ht : t = _ := sweepNext_scan s hr hs h hw
      rw [ht]
      exact ⟨rfl, rfl, handRead_queue_of _ _ _ _ _, fun q hq => (handRead_queue_of _ _ _ _ _).trans (if_neg hq)⟩
  · intro s calls
    refine ⟨fun hnone => ?_, fun w hw hfirst => ?_⟩
    · have hp : pick s.callsForRead (List.finRange 64) = none := by
        cases hp : pick s.callsForRead (List.finRange 64) with
        | none => rfl
        | some w => exact absurd ((callsForRead_iff s w).1 ((pick_finRange_iff _ w).1 hp).1) (hnone w)
      rw [nextRefresh_eq, hp]
    · have hp : pick s.callsForRead (List.finRange 64) = some w :=
        (pick_finRange_iff _ w).2 ⟨(callsForRead_iff s w).2 hw, fun v hv =>
          Bool.eq_false_iff.2 (fun hc => hfirst v hv ((callsForRead_iff s v).1 hc))⟩
      obtain ⟨-, -, hphase⟩ := hw
      rw [nextRefresh_eq, hp]
      simp only [refreshKind_of_calls _ hphase, Option.map_some]
  · intro s
    refine ⟨serveCustody_idle s, fun n req rest ha hr hq => ?_⟩
    obtain ⟨before, r, after, count, hqueue, hsame, hs⟩ := serveCustody_begins s n req rest ha hr hq
    intro t
    have ht : t = _ := hs
    refine ⟨before, r, after, hqueue, hsame, nothing_before_alone (hq ▸ hqueue) hsame, ?_⟩
    have h := beginAction_move 0 r { s with custody := { s.custody with queue := before ++ after }, freeCount := count }
    rw [ht]
    exact ⟨rfl, rfl, h.queue, h.queues, h.port⟩

end

section
/-! PROOF. The load's custody step: what the end of its actions does, the map entries it takes from the engine words (01 R22), and the
entry into RUNNING (10 R176, 09 R166). -/

namespace Sys2Proof.Machine

/-! ### The entry into RUNNING (10 R176 R173, 09 R158 R166) -/

/-- The Request Reader as a load leaves it. -/
def loadedReader (s : State) : Reader :=
  { lastEpoch := s.loader.epoch, nextIndex := 0, pollTimer := some (s.params.pollPeriod * 10), sweep := .idle
    sweepPending := false, sweepStart := s.reader.sweepStart }

/-- The part as it enters RUNNING, before a held POLL_NOW is taken. -/
def runningBegins (s : State) : State :=
  setEvent .loadDone (runStateWrite .running .plain (setRun .running { s with loader := {}, reader := loadedReader s }))

theorem runningBegins_hasEvent (s : State) (e : Event) :
    (runningBegins s).hasEvent e = (decide (Event.loadDone = e) || s.hasEvent e) := setEvent_hasEvent _ _ _

/-- The run state field is written, and no other access handed over. -/
theorem runningBegins_queue (s : State) (q : Requester) : (runningBegins s).queue q =
    if q = .loader then s.queue .loader ++ [⟨addrOf s.params.controlBlock 0x100, some 2#32, .plain⟩] else s.queue q :=
  handWrite_queue_of .loader q _ _ _ _

/-- The reader of a load is IDLE, so a held POLL_NOW begins a sweep. -/
theorem enterRunning_eq (s : State) :
    enterRunning s = if s.regs.pollNow = true then beginSweep (runningBegins s) else runningBegins s := rfl

/-- The end of a load action leaves the state, begins the next circuit's action, or enters RUNNING. -/
theorem loadNext_cases (s : State) :
    loadNext s = s ∨
    loadNext s = beginAction (.load (s.loader.index + 1)) (modLoader (fun l => { l with index := s.loader.index + 1 }) s) ∨
    loadNext s = enterRunning (statusWrite .request 0x108 s.clock.netTime s) := by
  by_cases h : s.run = .loading ∧ s.loader.step = .custody
  · by_cases hn : s.loader.index + 1 < s.params.circuitCount
    · exact .inr (.inl (loadNext_next s h.1 h.2 hn))
    · exact .inr (.inr (loadNext_last s h.1 h.2 (by omega)))
  · exact .inl (loadNext_outside s (by tauto))

/-- The end of a load action changes no map entry; it reaches the Custody Unit, the loader, the reader, the registers and the queues of
accesses alone. -/
theorem loadNext_frame (s : State) :
    loadNext s = { s with
      custody := { s.custody with action := (loadNext s).custody.action, queue := (loadNext s).custody.queue }
      master := (loadNext s).master, loader := (loadNext s).loader, reader := (loadNext s).reader, regs := (loadNext s).regs } := by
  rcases loadNext_cases s with h | h | h <;> rw [h]
  · rfl
  · rw [enterRunning_eq]
    split <;> rfl

theorem loadNext_mapEntry (s : State) (c : Nat) : (loadNext s).mapEntry c = s.mapEntry c := by
  rw [loadNext_frame]; rfl

/-- A load's action reaches the Custody Unit, the loader, the reader, the registers and the queues of accesses alone. -/
theorem loadAction_frame (c : Nat) (s u : State)
    (h : (∃ m b handed, CustodyMove c s u m b handed) ∨ ∃ t m, u = loadNext t ∧ CustodyMove c s t m none []) :
    u = { s with custody := u.custody, master := u.master, loader := u.loader, reader := u.reader, regs := u.regs } ∧
    u.hostSide = s.hostSide ∧ ∀ d, d ≠ c → u.mapEntry d = s.mapEntry d := by
  rcases h with ⟨m, b, handed, h⟩ | ⟨t, m, rfl, h⟩
  · refine ⟨?_, h.hostSide, h.others⟩
    rw [h.within]
  · refine ⟨?_, ?_, fun d hd => ?_⟩
    · rw [loadNext_frame, h.within]
    · rw [hostSide_eq, loadNext_surround]; exact h.hostSide
    · rw [loadNext_mapEntry, h.others d hd]

/-! ### The map entry from the engine word (01 R22) -/

theorem engineOfCode_code (e : EngineState) : engineOfCode e.code = e := by cases e <;> rfl

/-- No circuit is taken as CLAIMED. -/
theorem mapEntryOfWord_not_claimed (w : Word) : (mapEntryOfWord w).engine ≠ .claimed := by
  simp only [mapEntryOfWord]
  split
  · decide
  · assumption

/-- The word shows the code of a state other than CLAIMED only where the entry taken from it is in that state. -/
theorem mapEntryOfWord_engine (w : Word) (e : EngineState) (h : bits w 2 0 = e.code) (he : e ≠ .claimed) :
    (mapEntryOfWord w).engine = e := by
  simp [mapEntryOfWord, h, engineOfCode_code, he]

/-- The engine state a load's action reaches without a route read (01 R12 R22). -/
def loadReached (req : HostRequest) (e : EngineState) : EngineState :=
  if req = .active then e else if req = .recall ∧ e ≠ .ignored then .released else .ignored

theorem loadReached_not_claimed (req : HostRequest) (e : EngineState) (he : e ≠ .claimed) : loadReached req e ≠ .claimed := by
  unfold loadReached
  split
  · exact he
  · split <;> decide

/-- At a load a circuit that is not validated stays, or becomes the state its request asks for. -/
theorem hostAction_load (req : HostRequest) (e : EngineState) (same : Bool) (he : e ≠ .claimed)
    (h : ¬ (req = .active ∧ ¬ (e = .rejected ∧ same = true))) :
    hostAction true req e same = if loadReached req e = e then .stay else .become (loadReached req e) := by
  match req, h with
  | .vacant, _ => cases e <;> first | rfl | contradiction
  | .recall, _ => cases e <;> first | rfl | contradiction
  | .active, h =>
    obtain ⟨rfl, rfl⟩ : e = .rejected ∧ same = true := by simpa using h
    rfl

theorem hostAction_load_validates (e : EngineState) (same : Bool) (he : e ≠ .claimed) (h : ¬ (e = .rejected ∧ same = true)) :
    hostAction true .active e same = .validate := by
  cases e with
  | ignored => rfl
  | watched => rfl
  | released => rfl
  | claimed => exact absurd rfl he
  | rejected => cases same <;> first | rfl | exact absurd ⟨rfl, rfl⟩ h

section LoadRecord

variable (a : Action) (words : RecordWords) (s : State) (c : Nat)

/-- A load's action that leaves the engine state writes the engine word where it showed another state, and ends where it did not. -/
theorem afterHostAction_load_writes (ha : s.custody.action = some a) (hr : a.req = .load c)
    (hd : bits words.engine 2 0 ≠ (s.mapEntry c).engine.code) :
    CustodyMove c s (afterHostAction a words s) (s.mapEntry c) (some { a with phase := .writing (.finish .notWatched) })
      [⟨recordAddr s c 0x0C, some (engineWord (s.mapEntry c).engine (s.mapEntry c).lastVerdict (s.mapEntry c).lastCampaign),
        .actionEnd⟩] := by
  have hs : shownDiffers words (s.mapEntry c) = true := (shownDiffers_iff _ _).2 hd
  have hw := engineWordWrite_move c (tag := .actionEnd) s _ _ _ (setPhase_move c (.writing (.finish .notWatched)) s a ha)
  simpa [afterHostAction, hr, CustodyReq.circuit, hs] using hw

theorem afterHostAction_load_ends (ha : s.custody.action = some a) (hr : a.req = .load c)
    (hd : bits words.engine 2 0 = (s.mapEntry c).engine.code) : afterHostAction a words s = loadNext (setAction none s) := by
  have hs : shownDiffers words (s.mapEntry c) = false := by
    rw [Bool.eq_false_iff, Ne, shownDiffers_iff]; exact not_not.2 hd
  rw [← endAction_load .notWatched s a c ha hr]
  simp [afterHostAction, hr, CustodyReq.circuit, hs]

/-- The route of a circuit to be validated is read. -/
theorem loadRecord_routed (ha : s.custody.action = some a) (hr : a.req = .load c) (hn : a.disturbed = false)
    (hreq : hostRequest words.host = .active)
    (hv : ¬ ((mapEntryOfWord words.engine).engine = .rejected ∧ hostRevision words.host = bits words.captured 15 0)) :
    CustodyMove c s (recordDone a words s) (mapEntryOfWord words.engine) (some { a with phase := .routing words {} })
      [⟨recordAddr s c 0x04, none, .route⟩] := by
  have hd : a.decision words (setMapEntry c (mapEntryOfWord words.engine) s) = .validate := by
    simp only [Action.decision, hr, CustodyReq.isLoad, CustodyReq.circuit, setMapEntry_mapEntry_same, hreq]
    exact hostAction_load_validates _ _ (mapEntryOfWord_not_claimed _) (by simpa using hv)
  have h := applyRecord_validate a words (setMapEntry c (mapEntryOfWord words.engine) s) ha (by rw [hr]; rfl) hd
  rw [recordDone_load a words s hn (by rw [hr]; rfl)]
  rw [hr] at h ⊢
  have h' := CustodyMove.after_setMapEntry h
  rwa [CustodyReq.circuit, setMapEntry_mapEntry_same] at h'

/-- Any other circuit reaches its state; its engine word is written where it showed another one, and its action ends where it did not. -/
theorem loadRecord_reached (ha : s.custody.action = some a) (hr : a.req = .load c) (hn : a.disturbed = false)
    (hv : ¬ (hostRequest words.host = .active ∧
      ¬ ((mapEntryOfWord words.engine).engine = .rejected ∧ hostRevision words.host = bits words.captured 15 0))) :
    let shown := mapEntryOfWord words.engine
    let m := { shown with engine := loadReached (hostRequest words.host) shown.engine }
    (bits words.engine 2 0 ≠ m.engine.code → CustodyMove c s (recordDone a words s) m
      (some { a with phase := .writing (.finish .notWatched) })
      [⟨recordAddr s c 0x0C, some (engineWord m.engine shown.lastVerdict shown.lastCampaign), .actionEnd⟩]) ∧
    (bits words.engine 2 0 = m.engine.code → recordDone a words s = loadNext (setAction none (setMapEntry c m s))) := by
  intro shown m
  have hc : a.req.isCompare = false := by rw [hr]; rfl
  have hshown : shown.engine ≠ .claimed := mapEntryOfWord_not_claimed _
  have hd : a.decision words (setMapEntry c shown s) = if m.engine = shown.engine then .stay else .become m.engine := by
    simp only [Action.decision, hr, CustodyReq.isLoad, CustodyReq.circuit, setMapEntry_mapEntry_same]
    exact hostAction_load _ _ _ hshown (by simpa using hv)
  have hdone : recordDone a words s = applyRecord a words (setMapEntry c shown s) := by
    rw [recordDone_load a words s hn (by rw [hr]; rfl), hr]; rfl
  rw [hdone]
  by_cases hstay : m.engine = shown.engine
  · have hm : m = shown := by show { shown with engine := m.engine } = shown; rw [hstay]
    rw [applyRecord_stay a words _ hc (hd.trans (if_pos hstay)), hm]
    refine ⟨fun hb => ?_, fun hb => ?_⟩
    · have h := (afterHostAction_load_writes a words (setMapEntry c shown s) c ha hr (by simpa using hb)).after_setMapEntry
      rwa [setMapEntry_mapEntry_same] at h
    · exact afterHostAction_load_ends a words (setMapEntry c shown s) c ha hr (by simpa using hb)
  · refine ⟨fun _ => ?_, fun hb => ?_⟩
    · have h := applyRecord_become a words (setMapEntry c shown s) m.engine ha hc (hd.trans (if_neg hstay))
      rw [hr] at h
      have h' := CustodyMove.after_setMapEntry h
      rw [CustodyReq.circuit, setMapEntry_mapEntry_same] at h'
      rw [hr]
      exact h'
    · exact absurd (mapEntryOfWord_engine _ _ hb (loadReached_not_claimed _ _ hshown)).symm hstay

end LoadRecord

/-- What a load's action makes of the part at the end of its record reads: a move of the Custody Unit, or a move that ends the action. -/
theorem loadRecord_cases (a : Action) (words : RecordWords) (s : State) (c : Nat) (ha : s.custody.action = some a)
    (hr : a.req = .load c) (hn : a.disturbed = false) :
    (∃ m b handed, CustodyMove c s (recordDone a words s) m b handed) ∨
    ∃ t m, recordDone a words s = loadNext t ∧ CustodyMove c s t m none [] := by
  by_cases hv : hostRequest words.host = .active ∧
      ¬ ((mapEntryOfWord words.engine).engine = .rejected ∧ hostRevision words.host = bits words.captured 15 0)
  · exact .inl ⟨_, _, _, loadRecord_routed a words s c ha hr hn hv.1 hv.2⟩
  · obtain ⟨hwrites, hends⟩ := loadRecord_reached a words s c ha hr hn hv
    by_cases hb : bits words.engine 2 0 = (loadReached (hostRequest words.host) (mapEntryOfWord words.engine).engine).code
    · exact .inr ⟨_, _, hends hb, setEntry_none_move c _ s⟩
    · exact .inl ⟨_, _, _, hwrites hb⟩

end Sys2Proof.Machine

open Sys2Proof Sys2Proof.Machine

/-- Settles O10: a load's action reads a route, writes its engine word or ends, and the last one enters RUNNING. -/
theorem loadTakesTheMapFromEngineWords : Obligations.LoadTakesTheMapFromEngineWords := by
  refine ⟨?_, ?_, ?_, ?_⟩
  · intro data s c got hs ha hl words shown same
    let a : Machine.Action := { req := .load c, phase := .reading got }
    obtain ⟨hframe, hhost, hothers⟩ := loadAction_frame c s.portFreed _ (loadRecord_cases a words s.portFreed c ha rfl rfl)
    obtain ⟨hkeep, hbytes⟩ := settle_keeps hhost
    refine ⟨_, loadCustodyReadDone_eq data s a got hs ha rfl hl rfl, hframe, hkeep, hbytes, hothers, ?_⟩
    by_cases hv : hostRequest words.host = .active ∧ ¬ (shown.engine = .rejected ∧ same)
    · have h := loadRecord_routed a words s.portFreed c ha rfl rfl hv.1 hv.2
      refine ⟨h.entry.trans ?_, fun _ _ => ⟨h.queue, h.action⟩, fun _ hno => absurd hv hno, fun _ hno => absurd hv hno⟩
      rw [if_pos hv.1]
    · obtain ⟨hwrites, hends⟩ := loadRecord_reached a words s.portFreed c ha rfl rfl hv
      have hentry : (recordDone a words s.portFreed).mapEntry c =
          { shown with engine := loadReached (hostRequest words.host) shown.engine } := by
        by_cases hb : bits words.engine 2 0 = (loadReached (hostRequest words.host) shown.engine).code
        · rw [hends hb, loadNext_mapEntry]
          exact setMapEntry_mapEntry_same _ _ _
        · exact (hwrites hb).entry
      refine ⟨hentry, fun hreq hno => absurd ⟨hreq, hno⟩ hv, fun hb _ => ?_, fun hb _ => ?_⟩
      · rw [hentry] at hb ⊢
        exact ⟨(hwrites hb).action, (hwrites hb).queue⟩
      · rw [hentry] at hb ⊢
        exact hends hb
  · intro data s r x a c o hport ht ha hr hp
    have hp' : (endAccess x s).custody.action = some a := ha
    rw [memoryAccessDone_actionEnd data s r x hport ht, actionWritten_finish _ a o hp' hp, endAction_load o _ a c hp' hr]
  · intro s hr hs h next t
    have ht : t = _ := loadNext_next s hr hs h
    have hm := beginAction_move 0 (.load next) (modLoader (fun l => { l with index := next }) s)
    rw [ht]
    exact ⟨rfl, rfl, hm.queue, hm.port, hm.queues⟩
  · intro s hr hs h t now taken
    have hstatus : ∀ q, (statusWrite .request 0x108 now s).queue q =
        if q = .request then s.queue .request ++ [⟨addrOf s.params.controlBlock 0x108, some now, .plain⟩] else s.queue q :=
      fun q => handWrite_queue_of .request q _ _ _ _
    have hqueue : ∀ q, (runningBegins (statusWrite .request 0x108 now s)).queue q =
        if q = .loader then s.queue .loader ++ [⟨addrOf s.params.controlBlock 0x100, some 2#32, .plain⟩]
        else if q = .request then s.queue .request ++ [⟨addrOf s.params.controlBlock 0x108, some now, .plain⟩]
        else s.queue q := by
      intro q
      rw [runningBegins_queue, hstatus, hstatus]
      rfl
    have hothers : ∀ q, q ≠ .request → q ≠ .loader → (runningBegins (statusWrite .request 0x108 now s)).queue q = s.queue q := by
      intro q h1 h2
      rw [hqueue, if_neg h2, if_neg h1]
    have hevent : ∀ e, e ≠ .loadDone → (runningBegins (statusWrite .request 0x108 now s)).hasEvent e = s.hasEvent e := by
      intro e he
      rw [runningBegins_hasEvent, decide_eq_false (Ne.symm he), Bool.false_or]
      rfl
    have ht : t = if s.regs.pollNow = true then beginSweep (runningBegins (statusWrite .request 0x108 now s))
        else runningBegins (statusWrite .request 0x108 now s) :=
      (loadNext_last s hr hs h).trans (enterRunning_eq _)
    cases hp : s.regs.pollNow with
    | true =>
      rw [hp, if_pos rfl] at ht
      rw [ht]
      exact ⟨rfl, rfl, runningBegins_hasEvent _ _, hevent, hqueue .request, hqueue .loader, rfl, hothers,
        fun hno => Bool.noConfusion hno, fun _ => ⟨rfl, rfl⟩⟩
    | false =>
      rw [hp, if_neg Bool.false_ne_true] at ht
      rw [ht]
      refine ⟨rfl, ?_, runningBegins_hasEvent _ _, hevent, hqueue .request, hqueue .loader, rfl, hothers,
        fun _ => ⟨rfl, rfl⟩, fun hno => Bool.noConfusion hno⟩
      exact congrArg (fun p => ({ s.regs with
        runState := .running, pollNow := p, events := (runningBegins (statusWrite .request 0x108 now s)).regs.events } : Regs)) hp

end

section
/-! PROOF. The end of a sweep's or a load's route read (01 R13 R14) and the VERDICT entry of a rejection (01 R14 R15). -/

namespace Sys2Proof.Machine

/-- The request of a validation: the load's, or a sweep's. -/
def validating (isLoad : Bool) (c : Nat) : CustodyReq := if isLoad = true then .load c else .sweep c

@[simp] theorem validating_circuit (isLoad : Bool) (c : Nat) : (validating isLoad c).circuit = c := by cases isLoad <;> rfl

section Route

variable (isLoad : Bool) (c : Nat) (a : Action) (words : RecordWords) (w4 : Word) (s : State)

/-- A valid route of a sweep or of the load is an acceptance. -/
theorem routeEnd_accepts (r : Route) (hr : a.req = validating isLoad c) (hn : a.disturbed = false) :
    routeEnd a words w4 (some r) s = accept c words isLoad .notWatched s := by
  cases isLoad <;> simp [routeEnd, hn, routeResult, hr, validating, CustodyReq.circuit]

/-- An invalid route of a sweep or of the load is a rejection without a campaign. -/
theorem routeEnd_rejects (hr : a.req = validating isLoad c) (hn : a.disturbed = false) :
    routeEnd a words w4 none s = reject c words .routeInvalid [] .notWatched s := by
  cases isLoad <;> simp [routeEnd, hn, routeResult, hr, validating, CustodyReq.circuit]

/-- A load's acceptance that writes nothing ends its action. -/
theorem accept_load_ends (ha : s.custody.action = some a) (hr : a.req = .load c) (hw : bits words.engine 2 0 = 1)
    (hsame : hostRevision words.host = bits words.captured 15 0) :
    accept c words true .notWatched s =
      loadNext (setAction none (setMapEntry c { s.mapEntry c with engine := .watched, release := .none } s)) := by
  rw [accept_nothing c words true .notWatched s rfl hw hsame]
  exact endAction_load .notWatched _ a c ha hr

end Route

/-- Outside HALTED the last write of a rejection or an illegal edit offers its VERDICT entry. -/
theorem actionWritten_journal (s : State) (a : Action) (rev : Nat) (v : Verdict) (baseline : Option Int) (ids : List Nat)
    (o : SelectOutcome) (ha : s.custody.action = some a) (hp : a.phase = .writing (.journal rev v baseline ids o))
    (hrun : s.run ≠ .halted) :
    actionWritten s = modJournal (fun j => { j with custOffer := some (custodyEntry s a.req.circuit rev v baseline ids) })
      (setAction (some { a with phase := .entry o }) s) := by
  simp [actionWritten, ha, hp, hrun, setPhase]

theorem field_zero (width lo : Nat) : field 0 width lo = 0 := by simp [field]

/-- The VERDICT entry of a rejection or an illegal edit: 56 bytes, REJECTED, everything unsaid 0. -/
theorem custodyEntry_body (s : State) (c rev : Nat) (v : Verdict) (baseline : Option Int) (ids : List Nat) :
    (custodyEntry s c rev v baseline ids).body =
      [field c 16 0 ||| field rev 16 16, field v.code 8 0 ||| 0x300, s.clock.netTime, 0, 0,
        field (baselineField baseline) 16 0 ||| field (baselineField baseline) 16 16, field ids.length 4 0,
        field (idByte ids 0) 8 0 ||| field (idByte ids 1) 8 8 ||| field (idByte ids 2) 8 16 ||| field (idByte ids 3) 8 24,
        field (idByte ids 4) 8 0 ||| field (idByte ids 5) 8 8 ||| field (idByte ids 6) 8 16 ||| field (idByte ids 7) 8 24,
        0, 0, 0] := by
  have hstate : field EngineState.rejected.code 8 8 = 0x300 := by decide
  have hloss : unsigned16 0 = 0 := by decide
  simp [custodyEntry, verdictEntry, hstate, hloss, field_zero, findingsKept, findingsDropped]

end Sys2Proof.Machine

open Sys2Proof Sys2Proof.Machine

/-- Settles O37: the acceptance in its three cases of words written, the rejection, and the VERDICT entry offered. -/
theorem routeReadAcceptsOrRejects : Obligations.RouteReadAcceptsOrRejects := by
  refine ⟨?_, ?_⟩
  · intro data s c words rr route isLoad req hs ha hd rev e same shown write word
    let a : Machine.Action := { req := req, phase := .routing words rr }
    have hr : a.req = validating isLoad c := rfl
    have hc : a.req.circuit = c := validating_circuit isLoad c
    refine ⟨_, routeReadDone_eq data s a words rr route hs ha rfl (by rw [hc]; exact hd), ?_⟩
    cases route with
    | none =>
      have h := reject_move c words .routeInvalid [] .notWatched s.portFreed a ha
      rw [routeEnd_rejects isLoad c a words _ s.portFreed hr rfl]
      obtain ⟨hframe, hhost, hothers⟩ := loadAction_frame c s.portFreed _ (.inl ⟨_, _, _, h⟩)
      obtain ⟨hkeep, hbytes⟩ := settle_keeps hhost
      exact ⟨hframe, hkeep, hbytes, hothers, fun _ => ⟨h.loader, h.reader, h.regs⟩, fun hno => Bool.noConfusion hno,
        fun _ => ⟨h.entry, h.action, h.queue⟩⟩
    | some route =>
      rw [routeEnd_accepts isLoad c a words _ s.portFreed route hr rfl]
      by_cases hshown : shown
      · by_cases hsame : same
        · obtain ⟨rfl, hw⟩ := hshown
          let t := setAction none (setMapEntry c { s.portFreed.mapEntry c with engine := .watched, release := .none } s.portFreed)
          have hm : CustodyMove c s.portFreed t { e with engine := .watched, release := .none } none [] :=
            setEntry_none_move c _ s.portFreed
          have hu : accept c words true .notWatched s.portFreed = loadNext t := accept_load_ends c a words s.portFreed ha rfl hw hsame
          have hentry : (loadNext t).mapEntry c = { e with engine := .watched, release := .none } :=
            (loadNext_mapEntry t c).trans hm.entry
          rw [hu]
          obtain ⟨hframe, hhost, hothers⟩ := loadAction_frame c s.portFreed _ (.inr ⟨_, _, rfl, hm⟩)
          obtain ⟨hkeep, hbytes⟩ := settle_keeps hhost
          refine ⟨hframe, hkeep, hbytes, hothers, fun hno => ?_, fun _ => ⟨hentry, fun hno => absurd ⟨rfl, hw⟩ hno,
            fun _ hno => absurd hsame hno, fun hno => absurd ⟨⟨rfl, hw⟩, hsame⟩ hno, fun _ _ hrun hstep hmore => ?_,
            fun _ _ => rfl⟩, nofun⟩
          · rcases hno with hno | hno | hno
            · cases hno
            · cases hno
            · exact absurd ⟨hsame, rfl, hw⟩ hno
          · have hb := beginAction_move c (.load (s.loader.index + 1)) (modLoader (fun l => { l with index := s.loader.index + 1 }) t)
            have hnext : loadNext t = _ := loadNext_next t hrun hstep hmore
            rw [hnext]
            exact ⟨rfl, hb.action, hb.queue⟩
        · obtain ⟨hload, hw⟩ := hshown
          have h := accept_move_revision c words isLoad .notWatched s.portFreed a ha hload hw hsame
          obtain ⟨hframe, hhost, hothers⟩ := loadAction_frame c s.portFreed _ (.inl ⟨_, _, _, h⟩)
          obtain ⟨hkeep, hbytes⟩ := settle_keeps hhost
          exact ⟨hframe, hkeep, hbytes, hothers, fun _ => ⟨h.loader, h.reader, h.regs⟩, fun _ => ⟨h.entry,
            fun hno => absurd ⟨hload, hw⟩ hno, fun _ _ => h.queue, fun _ => h.action, fun _ hno => absurd hno hsame,
            fun _ hno => absurd hno hsame⟩, nofun⟩
      · have h := accept_move_word c words isLoad .notWatched s.portFreed a ha hshown
        obtain ⟨hframe, hhost, hothers⟩ := loadAction_frame c s.portFreed _ (.inl ⟨_, _, _, h⟩)
        obtain ⟨hkeep, hbytes⟩ := settle_keeps hhost
        exact ⟨hframe, hkeep, hbytes, hothers, fun _ => ⟨h.loader, h.reader, h.regs⟩, fun _ => ⟨h.entry,
          fun _ => h.queue.trans (List.append_assoc _ _ _).symm, fun hno => absurd hno hshown, fun _ => h.action,
          fun hno => absurd hno hshown, fun hno => absurd hno hshown⟩, nofun⟩
  · intro data s r x a rev v baseline ids o hport ht ha hp hrun b
    have hp' : (endAccess x s).custody.action = some a := ha
    refine ⟨_, custodyEntry (endAccess x s) a.req.circuit rev v baseline ids, memoryAccessDone_actionEnd data s r x hport ht,
      actionWritten_journal _ a rev v baseline ids o hp' hp hrun, rfl, ?_, custodyEntry_body _ _ _ _ _ _⟩
    simp [JournalEntry.bytes, custodyEntry_body]

end

section
/-! PROOF. The custody action of a selection: the end of its record reads and of its route read, and the outcome its campaign is given
(01 R16). -/

namespace Sys2Proof.Machine

/-! ### A campaign's outcome changes no map entry (03 R54) -/

theorem endStep_map (i : Fin 8) (s : State) : (endStep i s).custody.map = s.custody.map := by
  obtain ⟨-, -, -, -, -, hmap, -⟩ := endStep_cases i s
  exact hmap

theorem restartStep_map (i : Fin 8) (s : State) : (restartStep i s).custody.map = s.custody.map := by
  unfold restartStep
  split <;> rfl

theorem joinEntry_map (i : Fin 8) (sel : Selected) (s : State) : (joinEntry i sel s).custody.map = s.custody.map := by
  unfold joinEntry
  split
  · exact endStep_map _ _
  · exact restartStep_map _ _

theorem spanTest_map (i : Fin 8) (claimed : Bool) (sel : Selected) (s : State) :
    (spanTest i claimed sel s).custody.map = s.custody.map := by
  unfold spanTest
  split
  · exact endStep_map _ _
  · split
    · exact endStep_map _ _
    · split
      · exact joinEntry_map _ _ _
      · rfl

theorem stepOutcome_map (i : Fin 8) (o : SelectOutcome) (s : State) : (stepOutcome i o s).custody.map = s.custody.map := by
  have span : ∀ claimed sel, (if s.run = .running then spanTest i claimed sel s
      else modCampaign i (fun c => { c with step := .idle }) s).custody.map = s.custody.map := by
    intro claimed sel
    split
    · exact spanTest_map _ _ _ _
    · rfl
  unfold stepOutcome
  simp only []
  split
  · cases o with
    | notWatched => exact endStep_map _ _
    | unusable => exact endStep_map _ _
    | rejected => exact endStep_map _ _
    | watched sel => exact span false sel
    | claimed sel => exact span true sel
  · rfl

/-! ### The end of a selection's action (01 R16) -/

/-- A selection's action ends with an outcome: its campaign is given it while the selection is live. -/
def selectEnds (i : Fin 8) (live : Bool) (o : SelectOutcome) (s : State) : State :=
  if live = true then stepOutcome i o (setAction none s) else setAction none s

theorem selectEnds_hostSide (i : Fin 8) (live : Bool) (o : SelectOutcome) (s : State) :
    (selectEnds i live o s).hostSide = s.hostSide := by
  unfold selectEnds
  split
  · rw [hostSide_eq, stepOutcome_surround]; rfl
  · rfl

theorem selectEnds_mapEntry (i : Fin 8) (live : Bool) (o : SelectOutcome) (s : State) (c : Nat) :
    (selectEnds i live o s).mapEntry c = s.mapEntry c := by
  unfold selectEnds
  split
  · unfold State.mapEntry; rw [stepOutcome_map]; rfl
  · rfl

section Select

variable (a : Action) (words : RecordWords) (s : State) (i : Fin 8) (id c : Nat) (live : Bool)

theorem endAction_selectEnds (o : SelectOutcome) (ha : s.custody.action = some a) (hr : a.req = .select i id c live) :
    endAction o s = selectEnds i live o s := endAction_select o s a i id c live ha hr

/-! ### The end of its record reads -/

/-- A WATCHED or CLAIMED circuit that the table leaves as it is has its route read. -/
theorem afterHostAction_select_routed (ha : s.custody.action = some a) (hr : a.req = .select i id c live)
    (he : (s.mapEntry c).engine = .watched ∨ (s.mapEntry c).engine = .claimed) :
    CustodyMove c s (afterHostAction a words s) (s.mapEntry c) (some { a with phase := .routing words {} })
      [⟨recordAddr s c 0x04, none, .route⟩] := by
  have h : afterHostAction a words s = beginRoute c words s := by simp [afterHostAction, hr, CustodyReq.circuit, he]
  rw [h]
  exact beginRoute_move c words s a ha

/-- Any other circuit that the table leaves as it is ends the action with "not watched". -/
theorem afterHostAction_select_ends (ha : s.custody.action = some a) (hr : a.req = .select i id c live)
    (hw : (s.mapEntry c).engine ≠ .watched) (hc : (s.mapEntry c).engine ≠ .claimed) :
    afterHostAction a words s = selectEnds i live .notWatched s := by
  rw [← endAction_selectEnds a s i id c live .notWatched ha hr]
  simp [afterHostAction, hr, CustodyReq.circuit, hw, hc]

/-- A CLAIMED circuit's release waits for the end of the route read (log entry 15). -/
theorem selectRecord_leaves (hr : a.req = .select i id c live)
    (hd : a.decision words s = .stay ∨ a.decision words s = .release) :
    applyRecord a words s = afterHostAction a words s := by
  rw [applyRecord_follow a words s (by rw [hr]; rfl) (.inr (by rw [hr]; rfl))]
  rcases hd with hd | hd <;> rw [hd] <;> rfl

/-- The end of a selection's record reads moves the Custody Unit, or ends the action with "not watched". -/
theorem selectRecord_cases (ha : s.custody.action = some a) (hr : a.req = .select i id c live) :
    (∃ m b handed, CustodyMove c s (recordDone a words s) m b handed) ∨
    recordDone a words s = selectEnds i live .notWatched s := by
  cases hd : a.disturbed with
  | true => exact .inl ⟨_, _, _, by rw [recordDone_disturbed a words s hd]; exact beginAction_move c a.req s⟩
  | false =>
    rw [recordDone_undisturbed a words s hd (by rw [hr]; rfl)]
    rcases applyRecord_cases a words s ha (by rw [hr]; rfl) with h | h | ⟨r, hno, -⟩
    · rw [hr] at h; exact .inl h
    · rw [h]
      by_cases he : (s.mapEntry c).engine = .watched ∨ (s.mapEntry c).engine = .claimed
      · exact .inl ⟨_, _, _, afterHostAction_select_routed a words s i id c live ha hr he⟩
      · rw [not_or] at he
        exact .inr (afterHostAction_select_ends a words s i id c live ha hr he.1 he.2)
    · rw [hr] at hno; cases hno

/-! ### The end of its route read (01 R13 R14 R16) -/

theorem routeEnd_select_watched (w4 : Word) (r : Route) (ha : s.custody.action = some a) (hr : a.req = .select i id c live)
    (hn : a.disturbed = false) (he : (s.mapEntry c).engine = .watched) :
    routeEnd a words w4 (some r) s = selectEnds i live (.watched (selectedOf c words w4 r)) s := by
  rw [← endAction_selectEnds a s i id c live _ ha hr]
  simp [routeEnd, hn, routeResult, hr, CustodyReq.circuit, he]

theorem routeEnd_select_claimed (w4 : Word) (r : Route) (ha : s.custody.action = some a) (hr : a.req = .select i id c live)
    (hn : a.disturbed = false) (he : (s.mapEntry c).engine = .claimed) :
    routeEnd a words w4 (some r) s =
      selectEnds i live (.claimed (selectedOf c words w4 r)) (setRelease c (releaseFor (hostRequest words.host)) s) := by
  rw [← endAction_selectEnds a (setRelease c (releaseFor (hostRequest words.host)) s) i id c live _ ha hr]
  simp [routeEnd, hn, routeResult, hr, CustodyReq.circuit, he]

theorem routeEnd_select_unusable (w4 : Word) (ha : s.custody.action = some a) (hr : a.req = .select i id c live)
    (hn : a.disturbed = false) (he : (s.mapEntry c).engine = .claimed) :
    routeEnd a words w4 none s = selectEnds i live .unusable (setRelease c (releaseFor (hostRequest words.host)) s) := by
  rw [← endAction_selectEnds a (setRelease c (releaseFor (hostRequest words.host)) s) i id c live _ ha hr]
  simp [routeEnd, hn, routeResult, hr, CustodyReq.circuit, he]

theorem routeEnd_select_accepts (w4 : Word) (r : Route) (hr : a.req = .select i id c live) (hn : a.disturbed = false)
    (hw : (s.mapEntry c).engine ≠ .watched) (hc : (s.mapEntry c).engine ≠ .claimed) :
    routeEnd a words w4 (some r) s = accept c words false (.watched (selectedOf c words w4 r)) s := by
  simp [routeEnd, hn, routeResult, hr, CustodyReq.circuit]

theorem routeEnd_select_rejects (w4 : Word) (hr : a.req = .select i id c live) (hn : a.disturbed = false)
    (hc : (s.mapEntry c).engine ≠ .claimed) :
    routeEnd a words w4 none s = reject c words .routeInvalid [id] .rejected s := by
  simp only [routeEnd, hn, routeResult, hr, CustodyReq.circuit]
  cases he : (s.mapEntry c).engine <;> first | rfl | contradiction

/-- The end of a selection's route read moves the Custody Unit, or ends the action, the release of a CLAIMED circuit applied. -/
theorem selectRoute_cases (w4 : Word) (route : Option Route) (ha : s.custody.action = some a) (hr : a.req = .select i id c live) :
    (∃ m b handed, CustodyMove c s (routeEnd a words w4 route s) m b handed) ∨
    ∃ o t, routeEnd a words w4 route s = selectEnds i live o t ∧ (t = s ∨ ∃ m, t = setMapEntry c m s) := by
  cases hn : a.disturbed with
  | true =>
    have h : routeEnd a words w4 route s = beginAction a.req s := by simp [routeEnd, hn]
    exact .inl ⟨_, _, _, by rw [h]; exact beginAction_move c a.req s⟩
  | false =>
    by_cases hc : (s.mapEntry c).engine = .claimed
    · cases route with
      | none => exact .inr ⟨_, _, routeEnd_select_unusable a words s i id c live w4 ha hr hn hc, .inr ⟨_, rfl⟩⟩
      | some r => exact .inr ⟨_, _, routeEnd_select_claimed a words s i id c live w4 r ha hr hn hc, .inr ⟨_, rfl⟩⟩
    · cases route with
      | none =>
        rw [routeEnd_select_rejects a words s i id c live w4 hr hn hc]
        exact .inl ⟨_, _, _, reject_move c words _ _ _ s a ha⟩
      | some r =>
        by_cases hw : (s.mapEntry c).engine = .watched
        · exact .inr ⟨_, _, routeEnd_select_watched a words s i id c live w4 r ha hr hn hw, .inl rfl⟩
        · rw [routeEnd_select_accepts a words s i id c live w4 r hr hn hw hc]
          exact .inl ⟨_, _, _, accept_move_word c words false _ s a ha (by simp)⟩

end Select

/-- A selection's action leaves the host side and the other map entries. -/
theorem selectAction_frame (i : Fin 8) (live : Bool) (c : Nat) (s u : State)
    (h : (∃ m b handed, CustodyMove c s u m b handed) ∨
      ∃ o t, u = selectEnds i live o t ∧ (t = s ∨ ∃ m, t = setMapEntry c m s)) :
    u.hostSide = s.hostSide ∧ ∀ d, d ≠ c → u.mapEntry d = s.mapEntry d := by
  rcases h with ⟨m, b, handed, h⟩ | ⟨o, t, rfl, ht⟩
  · exact ⟨h.hostSide, h.others⟩
  · rw [selectEnds_hostSide]
    simp only [selectEnds_mapEntry]
    rcases ht with rfl | ⟨m, rfl⟩
    · exact ⟨rfl, fun _ _ => rfl⟩
    · exact ⟨rfl, fun d hd => (setMapEntry_mapEntry c d m s).trans (if_neg hd)⟩

end Sys2Proof.Machine

open Sys2Proof Sys2Proof.Machine

/-- Settles O38: the rows of the record's and of the route's end, each a move of the Custody Unit or the action's outcome. -/
theorem selectionActionsEndByTheTable : Obligations.SelectionActionsEndByTheTable := by
  refine ⟨?_, ?_⟩
  · intro data s i id c live disturbed e write act ends again kept
    have hkept : ∀ u, ((∃ m b handed, CustodyMove c s.portFreed u m b handed) ∨
        ∃ o t, u = selectEnds i live o t ∧ (t = s.portFreed ∨ ∃ m, t = setMapEntry c m s.portFreed)) → kept u := by
      intro u hu
      obtain ⟨hhost, hothers⟩ := selectAction_frame i live c s.portFreed u hu
      exact ⟨(settle_keeps hhost).1, (settle_keeps hhost).2, hothers⟩
    refine ⟨?_, ?_⟩
    · intro got hs ha hl words req rev same word reads
      let a : Machine.Action := { req := .select i id c live, disturbed := disturbed, phase := .reading got }
      refine ⟨_, hostWordReadDone_eq data s a got hs ha rfl hl rfl, hkept _ ?_, ?_, ?_⟩
      · exact (selectRecord_cases a words s.portFreed i id c live ha rfl).imp_right (fun h => ⟨_, _, h, .inl rfl⟩)
      · intro hd
        rw [recordDone_disturbed a words _ hd]
        have h := beginAction_move c (.select i id c live) s.portFreed
        exact ⟨h.entry, rfl, h.queue⟩
      · rintro rfl
        rw [recordDone_undisturbed a words _ rfl rfl]
        have hdec : ∀ d, hostAction false req e.engine (decide same) = d → a.decision words s.portFreed = d := fun d hd => hd
        refine ⟨fun hreads => ?_, fun hreq hc hi => ?_, fun hreq he => ?_, fun hreq he hsame => ?_, fun he => ?_⟩
        · have hroute : CustodyMove c s.portFreed (applyRecord a words s.portFreed) e (act (.routing words {}))
              [⟨recordAddr s c 0x04, none, .route⟩] := by
            rcases hreads with he | ⟨hreq, ⟨he, hsame⟩ | hv⟩
            · rw [selectRecord_leaves a words s.portFreed i id c live rfl
                (.inr (hdec _ (by rw [he]; exact hostAction_claimed _ _ _)))]
              exact afterHostAction_select_routed a words s.portFreed i id c live ha rfl (.inr he)
            · rw [selectRecord_leaves a words s.portFreed i id c live rfl
                (.inl (hdec _ (by rw [hreq, he, decide_eq_true hsame]; rfl)))]
              exact afterHostAction_select_routed a words s.portFreed i id c live ha rfl (.inl he)
            · exact applyRecord_validate a words s.portFreed ha rfl
                (hdec _ (by rw [hreq]; exact hostAction_validate _ _ _ (by simpa using hv)))
          exact ⟨hroute.entry, hroute.action, hroute.queue⟩
        · have h := applyRecord_become a words s.portFreed .ignored ha rfl (hdec _ (by rw [hreq]; exact hostAction_vacant _ _ _ hc hi))
          exact ⟨h.entry, h.action, h.queue⟩
        · have h := applyRecord_become a words s.portFreed .released ha rfl (hdec _ (by rw [hreq]; exact hostAction_recall _ _ _ he))
          exact ⟨h.entry, h.action, h.queue⟩
        · have h := applyRecord_edit a words s.portFreed ha rfl (hdec _ (by rw [hreq, he, decide_eq_false hsame]; rfl))
          exact ⟨h.entry, h.action, h.queue⟩
        · have hstay : hostAction false req e.engine (decide same) = .stay := by
            refine hostAction_stay _ _ _ _ ?_
            rcases he with ⟨hreq, he⟩ | ⟨hreq, he⟩ | ⟨hreq, he, hsame⟩
            · exact .inl ⟨he, hreq⟩
            · exact .inr (.inl ⟨he, hreq⟩)
            · exact .inr (.inr ⟨he, hreq, decide_eq_true hsame⟩)
          have hne : e.engine ≠ .watched ∧ e.engine ≠ .claimed := by
            rcases he with ⟨-, he⟩ | ⟨-, he⟩ | ⟨-, he, -⟩ <;> rw [he] <;> decide
          rw [selectRecord_leaves a words s.portFreed i id c live rfl (.inl (hdec _ hstay))]
          exact afterHostAction_select_ends a words s.portFreed i id c live ha rfl hne.1 hne.2
    · intro words rr route hs ha hd rev sel request rel released
      let a : Machine.Action := { req := .select i id c live, disturbed := disturbed, phase := .routing words rr }
      refine ⟨_, routeReadDone_eq data s a words rr route hs ha rfl hd, hkept _ ?_, ?_, ?_⟩
      · exact selectRoute_cases a words s.portFreed i id c live _ route ha rfl
      · intro hd
        have hu : ∀ w4, routeEnd a words w4 route s.portFreed = beginAction a.req s.portFreed := fun w4 => by simp [routeEnd, hd, a]
        rw [hu]
        have h := beginAction_move c (.select i id c live) s.portFreed
        exact ⟨h.entry, rfl, h.queue⟩
      · rintro rfl
        have hrel : released = setRelease c (releaseFor (hostRequest words.host)) s.portFreed := by
          show setMapEntry c { e with release := rel } s.portFreed = _
          rw [show rel = _ from (releaseFor_eq request).symm]
          rfl
        refine ⟨?_, ?_, ?_, ?_, ?_⟩
        · rintro r he rfl
          exact routeEnd_select_watched a words s.portFreed i id c live _ r ha rfl rfl he
        · rintro r he rfl
          rw [hrel]
          exact routeEnd_select_claimed a words s.portFreed i id c live _ r ha rfl rfl he
        · rintro he rfl
          rw [hrel]
          exact routeEnd_select_unusable a words s.portFreed i id c live _ ha rfl rfl he
        · rintro r hw hc rfl
          rw [routeEnd_select_accepts a words s.portFreed i id c live _ r rfl rfl hw hc]
          have h := accept_move_word c words false (.watched (sel r)) s.portFreed a ha (by simp)
          exact ⟨h.entry, h.action, h.queue.trans (List.append_assoc _ _ _).symm⟩
        · rintro hc rfl
          rw [routeEnd_select_rejects a words s.portFreed i id c live _ rfl rfl hc]
          have h := reject_move c words .routeInvalid [id] .rejected s.portFreed a ha
          exact ⟨h.entry, h.action, h.queue⟩
  · intro data s r x a i id c live o hport ht ha hr hp t
    have hp' : (endAccess x s).custody.action = some a := ha
    rw [memoryAccessDone_actionEnd data s r x hport ht, actionWritten_finish _ a o hp' hp,
      endAction_select o _ a i id c live hp' hr]

end

section
/-! PROOF. The custody action of a comparison (01 R17, 06 R111 R112): the verdicts it decides itself, and the route it hands on. -/

namespace Sys2Proof.Machine

/-! ### A verdict without route work (06 R119 R120) -/

/-- The engine state of a verdict under a pending release. -/
theorem engineAfter_eq (v : Verdict) (rel : Release) :
    engineAfter v rel = if rel = .toReleased then EngineState.released else if rel = .toIgnored then .ignored
      else if v = .edited ∨ v = .routeInvalid then .rejected else .watched := by
  cases rel <;> rfl

/-- The result of a verdict without route work in an engine state. -/
def plainVerdict (v : Verdict) (baseline : Option Int) (engine : EngineState) : CmpResult :=
  { verdict := v, findings := [], worst := 0, loss := 0, complete := false, baselineAfter := baseline, engine := engine }

/-- The Comparator in WRITING with a verdict without route work. -/
def writingPlain (x : Comparator) (v : Verdict) (engine : EngineState) : Comparator :=
  { x with
    phase := .writing
    result := some (plainVerdict v x.baseline engine)
    writes := (if engine = .rejected then [.captured] else []) ++ [.loss, .time, .engine] }

/-- The first write of such a verdict: the captured revision at REJECTED, else the path loss 0, not complete. -/
def firstPlainWrite (s : State) (c : Nat) (engine : EngineState) : Access :=
  if engine = .rejected then ⟨recordAddr s c 0x10, some (field s.cmp.revision 16 0), .cmpWrite⟩
  else ⟨recordAddr s c 0x18, some 0, .cmpWrite⟩

theorem resultWrites_plain (v : Verdict) (baseline : Option Int) (engine : EngineState) :
    resultWrites baseline (plainVerdict v baseline engine) =
      (if engine = .rejected then [.captured] else []) ++ [.loss, .time, .engine] := by
  have same : ¬ (plainVerdict v baseline engine).baselineAfter ≠ baseline := not_not.2 rfl
  unfold resultWrites
  rw [if_neg same]
  rfl

theorem lossWord_plain : lossWord 0 false = 0 := by decide

theorem beginWriting_eq (v : Verdict) (s : State) (item : Item) (c : Nat) (hi : s.cmp.item = some item)
    (hc : (s.entry item.entry).circuit = c) :
    beginWriting (plainResult v s.cmp.baseline) s =
      handCmpWrite (setPhase .comparing { s with cmp := writingPlain s.cmp v (engineAfter v (s.mapEntry c).release) }) := by
  unfold beginWriting
  split
  · next item' h =>
    obtain rfl : item' = item := Option.some.inj (h.symm.trans hi)
    subst hc
    unfold writingPlain
    rw [← resultWrites_plain]
    simp only [setPhase]
    cases s.custody.action <;> rfl
  · next h => rw [hi] at h; cases h

/-- The first write of a verdict without route work. -/
theorem handCmpWrite_plain (s : State) (x : Comparator) (v : Verdict) (engine : EngineState) (item : Item) (c : Nat)
    (hx : s.cmp = writingPlain x v engine) (hi : x.item = some item) (hc : (s.entry item.entry).circuit = c) :
    handCmpWrite s = hand .custody (firstPlainWrite s c engine) s := by
  have hitem : s.cmp.item = some item := by rw [hx]; exact hi
  have hresult : s.cmp.result = some (plainVerdict v x.baseline engine) := by rw [hx]; rfl
  by_cases he : engine = .rejected
  · have hwrites : s.cmp.writes = [.captured, .loss, .time, .engine] := by rw [hx, he]; rfl
    simp [handCmpWrite, hitem, hresult, hwrites, hc, firstPlainWrite, he, handWrite]
  · have hwrites : s.cmp.writes = [.loss, .time, .engine] := by rw [hx]; simp [writingPlain, he]
    simp [handCmpWrite, hitem, hresult, hwrites, hc, firstPlainWrite, he, handWrite, plainVerdict, lossWord_plain]

/-- The Comparator enters WRITING with a verdict without route work: the Custody Unit's action is the comparison, and the first write is
handed over. -/
theorem beginWriting_plain (v : Verdict) (s : State) (item : Item) (a : Action) (c : Nat) (hi : s.cmp.item = some item)
    (hc : (s.entry item.entry).circuit = c) (ha : s.custody.action = some a) :
    CustodyMove c { s with cmp := writingPlain s.cmp v (engineAfter v (s.mapEntry c).release) }
      (beginWriting (plainResult v s.cmp.baseline) s) (s.mapEntry c) (some { a with phase := .comparing })
      [firstPlainWrite s c (engineAfter v (s.mapEntry c).release)] := by
  have h := setPhase_move c .comparing { s with cmp := writingPlain s.cmp v (engineAfter v (s.mapEntry c).release) } a ha
  rw [beginWriting_eq v s item c hi hc, handCmpWrite_plain _ s.cmp v _ item c (congrArg (·.cmp) h.frame) hi
    (by rw [h.frame]; exact hc)]
  have hfirst : ∀ u : State, u.params = s.params → u.cmp.revision = s.cmp.revision →
      ∀ e, firstPlainWrite u c e = firstPlainWrite s c e := by
    intro u hp hr e
    simp only [firstPlainWrite, recordAddr, hp, hr]
  rw [hfirst _ h.params (congrArg (·.cmp.revision) h.frame)]
  exact h.hand _

/-! ### The end of its record reads (01 R17, 06 R111 R112 R125) -/

/-- The Comparator with what the record reads returned. -/
def comparatorRead (x : Comparator) (words : RecordWords) : Comparator :=
  { x with request := hostRequest words.host, revision := hostRevision words.host, baseline := baselineOfWord words.baseline }

section Compare

variable (a : Action) (words : RecordWords) (s : State) (i : Fin 64) (c : Nat)

/-- A comparison's record reads set the pending release of its CLAIMED circuit. -/
theorem recordDone_compare (hr : a.req = .compare i c) (hn : a.disturbed = false) (he : (s.mapEntry c).engine = .claimed) :
    recordDone a words s = compareRead i words (setRelease c (releaseFor (hostRequest words.host)) s) := by
  simp [recordDone, hn, applyRecord, hr, CustodyReq.isLoad, CustodyReq.circuit, CustodyReq.isSelect, he, hostAction_claimed]

/-- An outcome item, or an echo of another revision than the entry's, is a verdict without route work. -/
theorem compareRead_outcome (o : Conclusion) (hi : s.cmp.item = some ⟨i, .outcome o⟩) :
    compareRead i words s =
      beginWriting (plainResult o.verdict (baselineOfWord words.baseline)) { s with cmp := comparatorRead s.cmp words } := by
  simp [compareRead, modCmp, hi, comparatorRead]

theorem compareRead_edited (echo : Echo) (hi : s.cmp.item = some ⟨i, .echo echo⟩)
    (hrev : hostRevision words.host ≠ (s.entry i).revision) :
    compareRead i words s =
      beginWriting (plainResult .edited (baselineOfWord words.baseline)) { s with cmp := comparatorRead s.cmp words } := by
  have hrev' : ∀ x, hostRevision words.host ≠ (({ s with cmp := x } : State).entry i).revision := fun _ => hrev
  simp [compareRead, modCmp, hi, comparatorRead, hrev']

/-- An echo of the entry's revision has the route read. -/
theorem compareRead_routed (echo : Echo) (hi : s.cmp.item = some ⟨i, .echo echo⟩)
    (hrev : hostRevision words.host = (s.entry i).revision) :
    compareRead i words s = beginRoute (s.entry i).circuit words { s with cmp := comparatorRead s.cmp words } := by
  have hentry : ∀ x, (({ s with cmp := x } : State).entry i).circuit = (s.entry i).circuit := fun _ => rfl
  simp [compareRead, modCmp, hi, comparatorRead, hentry]
  exact fun hno => absurd hrev hno

/-- The pending release set and a verdict decided at once. -/
theorem releasedVerdict_move (v : Verdict) (rel : Release) (evidence : Evidence) (hi : s.cmp.item = some ⟨i, evidence⟩)
    (hc : (s.entry i).circuit = c) (ha : s.custody.action = some a) :
    CustodyMove c { s with cmp := writingPlain (comparatorRead s.cmp words) v (engineAfter v rel) }
      (beginWriting (plainResult v (baselineOfWord words.baseline)) { setRelease c rel s with cmp := comparatorRead s.cmp words })
      { s.mapEntry c with release := rel } (some { a with phase := .comparing })
      [firstPlainWrite { s with cmp := comparatorRead s.cmp words } c (engineAfter v rel)] := by
  have h := beginWriting_plain v { setRelease c rel s with cmp := comparatorRead s.cmp words } ⟨i, evidence⟩ a c hi hc ha
  have hentry : ({ setRelease c rel s with cmp := comparatorRead s.cmp words } : State).mapEntry c =
      { s.mapEntry c with release := rel } := setMapEntry_mapEntry_same c _ s
  rw [hentry] at h
  exact h.after_setMapEntry (s := { s with cmp := writingPlain (comparatorRead s.cmp words) v (engineAfter v rel) })

/-- The pending release set and the route read begun. -/
theorem releasedRoute_move (rel : Release) (ha : s.custody.action = some a) :
    CustodyMove c { s with cmp := comparatorRead s.cmp words }
      (beginRoute c words { setRelease c rel s with cmp := comparatorRead s.cmp words })
      { s.mapEntry c with release := rel } (some { a with phase := .routing words {} }) [⟨recordAddr s c 0x04, none, .route⟩] := by
  have h := beginRoute_move c words { setRelease c rel s with cmp := comparatorRead s.cmp words } a ha
  have hentry : ({ setRelease c rel s with cmp := comparatorRead s.cmp words } : State).mapEntry c =
      { s.mapEntry c with release := rel } := setMapEntry_mapEntry_same c _ s
  rw [hentry] at h
  exact h.after_setMapEntry (s := { s with cmp := comparatorRead s.cmp words })

/-! ### The end of its route read (06 R112) -/

theorem routeEnd_compare_aligning (w4 : Word) (r : Route) (ha : s.custody.action = some a) (hr : a.req = .compare i c)
    (hn : a.disturbed = false) :
    CustodyMove c { s with cmp := { s.cmp with phase := .aligning, route := some r } } (routeEnd a words w4 (some r) s)
      (s.mapEntry c) (some { a with phase := .comparing }) [] := by
  have h : routeEnd a words w4 (some r) s =
      setPhase .comparing { s with cmp := { s.cmp with phase := .aligning, route := some r } } := by
    simp [routeEnd, hn, routeResult, hr, modCmp]
  rw [h]
  exact setPhase_move c .comparing { s with cmp := { s.cmp with phase := .aligning, route := some r } } a ha

theorem routeEnd_compare_invalid (w4 : Word) (hr : a.req = .compare i c) (hn : a.disturbed = false) :
    routeEnd a words w4 none s = beginWriting (plainResult .routeInvalid s.cmp.baseline) s := by
  simp [routeEnd, hn, routeResult, hr]

end Compare

/-- A comparison's action leaves everything outside the Custody Unit, the Comparator and the unit's own hand-overs. -/
theorem compareAction_frame (c : Nat) (s u : State) (x : Comparator) (m : MapEntry) (b : Option Action) (handed : List Access)
    (h : CustodyMove c { s with cmp := x } u m b handed) :
    u = { s with
      custody := { s.custody with map := u.custody.map, action := u.custody.action }, cmp := u.cmp, master := u.master } ∧
    u.hostSide = s.hostSide ∧ (∀ d, d ≠ c → u.mapEntry d = s.mapEntry d) ∧ (∀ q, q ≠ .custody → u.queue q = s.queue q) := by
  refine ⟨?_, h.hostSide, h.others, h.queues⟩
  rw [h.frame]

end Sys2Proof.Machine

open Sys2Proof Sys2Proof.Machine

/-- Settles O39: each end is a `CustodyMove` of the comparison's action from a state in which the Comparator alone has changed. -/
theorem comparisonActionsDecideTheNextPhase : Obligations.ComparisonActionsDecideTheNextPhase := by
  intro data s i evidence x c e hitem hclaimed kept act writes
  have hkept : ∀ u y m b handed, CustodyMove c { s.portFreed with cmp := y } u m b handed → kept u := by
    intro u y m b handed h
    obtain ⟨hframe, hhost, hothers, hqueues⟩ := compareAction_frame c s.portFreed u y m b handed h
    exact ⟨hframe, (settle_keeps hhost).1, (settle_keeps hhost).2, hothers, hqueues⟩
  have hwrites : ∀ u v rel was m, CustodyMove c { s.portFreed with cmp := writingPlain was v (engineAfter v rel) } u m
      (act .comparing) [firstPlainWrite { s with cmp := was } c (engineAfter v rel)] → writes u v rel was := by
    intro u v rel was m h
    have hcmp : u.cmp = writingPlain was v (engineAfter v rel) := congrArg (·.cmp) h.frame
    have hqueue := h.queue
    rw [engineAfter_eq] at hcmp hqueue
    exact ⟨hcmp, h.action, hqueue⟩
  refine ⟨?_, ?_⟩
  · intro got hs ha hl words req rev rel was
    let a : Machine.Action := { req := .compare i c, phase := .reading got }
    refine ⟨_, hostWordReadDone_eq data s a got hs ha rfl hl rfl, ?_⟩
    have hrel : releaseFor req = rel := releaseFor_eq req
    rw [recordDone_compare a words s.portFreed i c rfl rfl hclaimed, hrel]
    have verdict : ∀ v, CustodyMove c { s.portFreed with cmp := writingPlain was v (engineAfter v rel) }
        (beginWriting (plainResult v (baselineOfWord words.baseline)) { setRelease c rel s.portFreed with cmp := was })
        { e with release := rel } (act .comparing) [firstPlainWrite { s with cmp := was } c (engineAfter v rel)] :=
      fun v => releasedVerdict_move a words s.portFreed i c v rel evidence hitem rfl ha
    cases evidence with
    | outcome o =>
      have h := compareRead_outcome words (setRelease c rel s.portFreed) i o hitem ▸ verdict o.verdict
      refine ⟨hkept _ _ _ _ _ h, h.entry, fun ho => ?_, fun ho => ?_, nofun, nofun⟩
      all_goals
        cases ho
        exact hwrites _ _ _ _ _ h
    | echo echo =>
      by_cases hrev : rev = x.revision
      · rw [compareRead_routed words (setRelease c rel s.portFreed) i echo hitem hrev]
        have h := releasedRoute_move a words s.portFreed c rel ha
        exact ⟨hkept _ _ _ _ _ h, h.entry, nofun, nofun, fun _ _ hno => absurd hrev hno,
          fun _ _ _ => ⟨congrArg (·.cmp) h.frame, h.action, h.queue⟩⟩
      · have h := compareRead_edited words (setRelease c rel s.portFreed) i echo hitem hrev ▸ verdict .edited
        exact ⟨hkept _ _ _ _ _ h, h.entry, nofun, nofun, fun _ _ _ => hwrites _ _ _ _ _ h, fun _ _ hyes => absurd hyes hrev⟩
  · intro words rr route hs ha hd
    let a : Machine.Action := { req := .compare i c, phase := .routing words rr }
    refine ⟨_, routeReadDone_eq data s a words rr route hs ha rfl hd, ?_⟩
    cases route with
    | none =>
      rw [routeEnd_compare_invalid a words s.portFreed i c _ rfl rfl]
      have h := beginWriting_plain .routeInvalid s.portFreed _ a c hitem rfl ha
      exact ⟨hkept _ _ _ _ _ h, h.entry, nofun, fun _ => hwrites _ _ _ _ _ h⟩
    | some r =>
      have h := routeEnd_compare_aligning a words s.portFreed i c ((rr.recWords ++ [data]).getD 0 0) r ha rfl rfl
      refine ⟨hkept _ _ _ _ _ h, h.entry, fun r' hr => ?_, nofun⟩
      obtain rfl : r = r' := Option.some.inj hr
      exact ⟨congrArg (·.cmp) h.frame, h.action, h.queue.trans (List.append_nil _)⟩

end

section
/-! PROOF. The end of an entry (01 R19, 03 R58 R60 R61, 04 R82 to R84, 06 R123): the leave from CLAIMED, the interests closed, the counts. -/

namespace Sys2Proof.Machine

/-! ### Leaving CLAIMED (01 R19) -/

theorem afterRelease_eq (r : Release) (base : EngineState) :
    afterRelease r base = if r = .toReleased then EngineState.released else if r = .toIgnored then .ignored else base := by
  cases r <;> rfl

/-- A leave reaches the circuit map and the custody action alone, and hands nothing over. -/
theorem leave_frame (c : Nat) (base : EngineState) (s : State) : leave c base s =
    { s with custody := { s.custody with map := (leave c base s).custody.map, action := (leave c base s).custody.action } } := by
  unfold leave
  rw [disturb_eq]
  rfl

/-- A circuit that leaves CLAIMED: its pending release is applied, and an action in flight on it is noted as disturbed (01 R11). -/
theorem leave_move (c : Nat) (base : EngineState) (s : State) :
    CustodyMove c s (leave c base s) { s.mapEntry c with engine := afterRelease (s.mapEntry c).release base, release := .none }
      (s.custody.action.map (fun a => { a with disturbed := a.disturbed || decide (a.req.circuit = c) })) [] := by
  unfold leave
  rw [disturb_eq]
  have h := (setAction_move c (s.custody.action.map fun a => { a with disturbed := a.disturbed || decide (a.req.circuit = c) })
    (setMapEntry c { s.mapEntry c with engine := afterRelease (s.mapEntry c).release base, release := .none } s)).after_setMapEntry
  rwa [setMapEntry_mapEntry_same] at h

/-! ### Closing the interests in an entry (03 R58 R61) -/

theorem foldl_closeJoiner_frame (f : Counts → Counts) (l : List (Fin 8)) (s : State) :
    l.foldl (closeJoiner f) s = { s with ctrl := { s.ctrl with slots := (l.foldl (closeJoiner f) s).ctrl.slots } } := by
  induction l generalizing s with
  | nil => rfl
  | cons j l ih =>
    rw [List.foldl_cons, ih]
    rfl

theorem closeInterests_frame (x : Entry) (f : Counts → Counts) (s : State) :
    closeInterests x f s = { s with ctrl := { s.ctrl with slots := (closeInterests x f s).ctrl.slots } } := by
  unfold closeInterests
  rw [foldl_closeJoiner_frame]
  rfl

theorem closeInterests_ctrl (x : Entry) (f : Counts → Counts) (s : State) :
    closeInterests x f s = { s with ctrl := (closeInterests x f s).ctrl } := by
  rw [closeInterests_frame]

theorem closeJoiner_campaign (f : Counts → Counts) (i j : Fin 8) (s : State) : (closeJoiner f s i).campaign j =
    if j = i then { s.campaign i with joinedOut := (s.campaign i).joinedOut - 1, counts := f (s.campaign i).counts } else s.campaign j :=
  modCampaign_campaign i j _ s

theorem closeOwner_campaign (f : Counts → Counts) (i j : Fin 8) (s : State) : (closeOwner i f s).campaign j =
    if j = i then { s.campaign i with owned := (s.campaign i).owned - 1, counts := f (s.campaign i).counts } else s.campaign j :=
  modCampaign_campaign i j _ s

theorem foldl_closeJoiner_campaign (f : Counts → Counts) (l : List (Fin 8)) (s : State) (hl : l.Nodup) (j : Fin 8) :
    (l.foldl (closeJoiner f) s).campaign j =
      if j ∈ l then { s.campaign j with joinedOut := (s.campaign j).joinedOut - 1, counts := f (s.campaign j).counts }
      else s.campaign j := by
  induction l generalizing s with
  | nil => rfl
  | cons i l ih =>
    obtain ⟨hi, hl⟩ := List.nodup_cons.1 hl
    rw [List.foldl_cons, ih _ hl, closeJoiner_campaign]
    by_cases hj : j = i
    · simp [hj, hi]
    · simp [hj]

/-- The campaigns of an entry that has closed its interests. -/
theorem closeInterests_campaign (x : Entry) (f : Counts → Counts) (s : State) (hl : x.joiners.Nodup) (ho : x.owner ∉ x.joiners) :
    (closeInterests x f s).campaign x.owner =
      { s.campaign x.owner with owned := (s.campaign x.owner).owned - 1, counts := f (s.campaign x.owner).counts } ∧
    (∀ j ∈ x.joiners, (closeInterests x f s).campaign j =
      { s.campaign j with joinedOut := (s.campaign j).joinedOut - 1, counts := f (s.campaign j).counts }) ∧
    (∀ j, j ≠ x.owner → j ∉ x.joiners → (closeInterests x f s).campaign j = s.campaign j) := by
  unfold closeInterests
  refine ⟨?_, fun j hj => ?_, fun j hj hn => ?_⟩
  · simp [foldl_closeJoiner_campaign, hl, ho, closeOwner_campaign]
  · have hne : j ≠ x.owner := fun h => ho (h ▸ hj)
    simp [foldl_closeJoiner_campaign, hl, hj, closeOwner_campaign, hne]
  · simp [foldl_closeJoiner_campaign, hl, hn, closeOwner_campaign, hj]

/-- Each verdict is one of the counts that sum to selected (03 R60). -/
theorem addVerdict_closed (n : Counts) (v : Verdict) (hv : v ≠ .none) : (n.addVerdict v).closed = n.closed + 1 := by
  cases v with
  | none => exact absurd rfl hv
  | _ =>
    simp only [Counts.addVerdict, Counts.closed]
    omega

/-! ### An entry freed (04 R75 R82) -/

theorem freeOne_entry (i j : Fin 64) (s : State) :
    (freeOne i s).entry j = if j = i then { generation := (s.entry i).generation } else s.entry j :=
  modEntry_entry i j _ s

theorem dequeueIfQueued_entry (i j : Fin 64) (s : State) : (dequeueIfQueued i s).entry j = s.entry j := by
  unfold dequeueIfQueued
  split <;> rfl

theorem entryFreed_entry (i j : Fin 64) (s : State) : (freeOne i (dequeueIfQueued i s)).entry j =
    if j = i then { generation := (s.entry i).generation } else s.entry j := by
  simp only [freeOne_entry, dequeueIfQueued_entry]

theorem dequeueIfQueued_frame (i : Fin 64) (s : State) :
    dequeueIfQueued i s = { s with probes := (dequeueIfQueued i s).probes } := by
  unfold dequeueIfQueued
  split <;> rfl

theorem setQueueOf_queueOf (q : LaunchSched) (c : Class) (l : List (Fin 64)) : (q.setQueueOf c l).queueOf c = l := by
  cases c <;> rfl

theorem dequeueIfQueued_queueOf (i : Fin 64) (s : State) (h : (s.entry i).state = .queued) :
    ((dequeueIfQueued i s).launchSched (s.entry i).link).queueOf (s.entry i).cls =
      ((s.launchSched (s.entry i).link).queueOf (s.entry i).cls).erase i := by
  simp [dequeueIfQueued, h, dequeue, setQueueOf_queueOf]

/-- The entry freed: it has left its launch queue and keeps its generation alone. -/
theorem entryFreed_frame (i : Fin 64) (s : State) :
    freeOne i (dequeueIfQueued i s) = { s with probes := (freeOne i (dequeueIfQueued i s)).probes } := by
  unfold freeOne modEntry
  rw [dequeueIfQueued_frame]

/-- The circuit left and its engine word written: what a withdrawal does after the entry is freed and before the interests close. -/
theorem releaseEntry_move (i : Fin 64) (s : State) :
    let c := (s.entry i).circuit
    let m := s.mapEntry c
    let after := afterRelease m.release .watched
    CustodyMove c { s with probes := (freeOne i (dequeueIfQueued i s)).probes } (releaseEntry i s)
      { m with engine := after, release := .none }
      (s.custody.action.map (fun a => { a with disturbed := a.disturbed || decide (a.req.circuit = c) }))
      [⟨recordAddr s c 0x0C, some (engineWord after m.lastVerdict m.lastCampaign), .plain⟩] := by
  intro c m after
  unfold releaseEntry
  rw [entryFreed_frame]
  exact engineWordWrite_move c _ _ _ _ (leave_move c .watched _)

end Sys2Proof.Machine

open Sys2Proof Sys2Proof.Machine

/-- Settles O33: a withdrawal and a verdict written are each a `leave` between an entry freed and interests closed, which reach
different fields. -/
theorem entriesLeaveAndAreCounted : Obligations.EntriesLeaveAndAreCounted := by
  refine ⟨⟨?_, ?_, ?_, ?_⟩, ?_⟩
  · intro c base s t
    have h := leave_move c base s
    rw [afterRelease_eq] at h
    exact ⟨leave_frame c base s, h.entry, h.others, h.action⟩
  · intro x f s
    exact ⟨closeInterests_campaign x f s, closeInterests_frame x f s⟩
  · intro i s _ x m after t
    let u := releaseEntry i s
    have hafter : afterRelease m.release .watched = after := afterRelease_eq _ _
    obtain ⟨a, h⟩ : ∃ a, CustodyMove x.circuit { s with probes := (freeOne i (dequeueIfQueued i s)).probes } u
        { m with engine := after, release := .none } a
        [⟨recordAddr s x.circuit 0x0C, some (engineWord after m.lastVerdict m.lastCampaign), .plain⟩] := by
      rw [← hafter]
      exact ⟨_, releaseEntry_move i s⟩
    have hentry : ∀ j, u.entry j = if j = i then { generation := x.generation } else s.entry j :=
      fun j => (congrArg (·.entry j) h.frame).trans (entryFreed_entry i j s)
    have hcampaign : ∀ j, u.campaign j = s.campaign j := fun j => congrArg (·.campaign j) h.frame
    have ht : t = { u with ctrl := { u.ctrl with slots := t.ctrl.slots } } := closeInterests_frame x _ u
    refine ⟨?_, ?_, ?_, ?_, ?_, ?_, ?_, ?_⟩
    · have hclosed := closeInterests_campaign x (fun n => { n with deferred := n.deferred + 1 }) u
      simp only [hcampaign] at hclosed
      exact hclosed
    · rw [ht, h.frame]
    · rw [ht]
      exact (hentry i).trans (if_pos rfl)
    · intro j hj
      rw [ht]
      exact (hentry j).trans (if_neg hj)
    · rw [ht]
      exact h.entry
    · rw [ht]
      exact h.others
    · intro hq
      rw [ht]
      exact (congrArg (fun v : State => (v.launchSched x.link).queueOf x.cls) h.frame).trans (dequeueIfQueued_queueOf i s hq)
    · rw [ht]
      exact h.queue
  · intro s item result hi hr x m base t
    let close := closeInterests x (fun n => n.addVerdict result.verdict) s
    let v := freeOne item.entry close
    have hclose : close = { s with ctrl := close.ctrl } := closeInterests_ctrl x _ s
    have hv : v = { s with ctrl := close.ctrl, probes := v.probes } := congrArg (fun w => ({ w with probes := v.probes } : State)) hclose
    have hentry : ∀ j, v.entry j = if j = item.entry then { generation := x.generation } else s.entry j := by
      intro j
      rw [show v.entry j = _ from freeOne_entry item.entry j close, hclose]
      rfl
    have hmap : ∀ d, v.mapEntry d = s.mapEntry d := fun d => congrArg (·.mapEntry d) hv
    have hleave := leave_move x.circuit base v
    rw [afterRelease_eq, hmap] at hleave
    have ht : t = cmpIdle (setAction none (leave x.circuit base v)) := by
      simp only [t, verdictWritten, hi, hr]
      rfl
    have hframe : t = { s with ctrl := t.ctrl, probes := t.probes, custody := t.custody, cmp := t.cmp } := by
      rw [ht, leave_frame, hv]
      rfl
    have hcampaign : ∀ j, t.campaign j = close.campaign j := fun j => ht ▸ congrArg (·.campaign j) hleave.frame
    have hfreed : ∀ j, t.entry j = v.entry j := fun j => ht ▸ congrArg (·.entry j) hleave.frame
    have hqueue : t.custody.queue = s.custody.queue :=
      ht ▸ (congrArg (·.custody.queue) hleave.frame).trans (congrArg (·.custody.queue) hv)
    have hcmp : (leave x.circuit base v).cmp = s.cmp := (congrArg (·.cmp) hleave.frame).trans (congrArg (·.cmp) hv)
    refine ⟨?_, hframe, ?_, ?_, ht ▸ hleave.entry, ?_, hqueue, ht ▸ rfl, ?_⟩
    · intro hl ho
      simp only [hcampaign]
      exact closeInterests_campaign x _ s hl ho
    · rw [hfreed, hentry, if_pos rfl]
    · intro j hj
      rw [hfreed, hentry, if_neg hj]
    · intro d hd
      rw [ht]
      exact (hleave.others d hd).trans (hmap d)
    · rw [ht, ← hcmp]
      rfl
  · exact fun n => ⟨rfl, rfl, rfl, rfl, rfl, rfl, rfl, rfl, rfl, addVerdict_closed n⟩

end

section
/-! PROOF. The route read (01 R5 to R9): a route is valid exactly where its HOPs meet the checks, and the words read, in order. -/

namespace Sys2Proof.Machine

/-! ### The words before the END (01 R6 R7) -/

/-- One HOP or ATTRIBUTE word taken: the attributes in force and the HOPs so far. -/
def takeWord (p : Attr × List Hop) (w : RouteWord) : Attr × List Hop :=
  if routeBits w 1 0 = 2 then (attrOfWord w, p.2) else (p.1, p.2 ++ [hopOfWord p.1 w])

/-- HOP and ATTRIBUTE words taken in order. -/
def takeWords (attr : Attr) (hops : List Hop) (words : List RouteWord) : Attr × List Hop := words.foldl takeWord (attr, hops)

/-- A HOP word, or an ATTRIBUTE word of a legal channel. -/
def KnownWord (w : RouteWord) : Prop := routeBits w 1 0 = 1 ∨ (routeBits w 1 0 = 2 ∧ channelOk (attrOfWord w).channel = true)

theorem takeWords_hop (attr : Attr) (hops : List Hop) (w : RouteWord) (words : List RouteWord) (h : routeBits w 1 0 = 1) :
    takeWords attr hops (w :: words) = takeWords attr (hops ++ [hopOfWord attr w]) words := by
  simp [takeWords, takeWord, h]

theorem takeWords_attr (attr : Attr) (hops : List Hop) (w : RouteWord) (words : List RouteWord) (h : routeBits w 1 0 = 2) :
    takeWords attr hops (w :: words) = takeWords (attrOfWord w) hops words := by
  simp [takeWords, takeWord, h]

theorem takeWords_extends (attr : Attr) (hops : List Hop) (words : List RouteWord) : hops <+: (takeWords attr hops words).2 := by
  induction words generalizing attr hops with
  | nil => exact ⟨[], List.append_nil _⟩
  | cons w words ih =>
    by_cases h : routeBits w 1 0 = 2
    · rw [takeWords_attr attr hops w words h]
      exact ih _ _
    · have hw : takeWords attr hops (w :: words) = takeWords attr (hops ++ [hopOfWord attr w]) words := by
        simp [takeWords, takeWord, h]
      rw [hw]
      exact List.IsPrefix.trans ⟨_, rfl⟩ (ih _ _)

theorem takeWords_take_extends (attr : Attr) (hops : List Hop) (words : List RouteWord) (n : Nat) :
    (takeWords attr hops (words.take n)).2 <+: (takeWords attr hops words).2 := by
  have h : takeWords attr hops words =
      takeWords (takeWords attr hops (words.take n)).1 (takeWords attr hops (words.take n)).2 (words.drop n) := by
    unfold takeWords
    rw [Prod.mk.eta, ← List.foldl_append, List.take_append_drop]
  rw [h]
  exact takeWords_extends _ _ _

/-- The HOPs of known words hold legal channels. -/
theorem takeWords_channel (attr : Attr) (hops : List Hop) (words : List RouteWord) (hk : ∀ w ∈ words, KnownWord w)
    (ha : channelOk attr.channel = true) (hh : ∀ h ∈ hops, channelOk h.attr.channel = true) :
    ∀ h ∈ (takeWords attr hops words).2, channelOk h.attr.channel = true := by
  induction words generalizing attr hops with
  | nil => exact hh
  | cons w words ih =>
    obtain ⟨hw, hk⟩ := List.forall_mem_cons.1 hk
    rcases hw with hw | ⟨hw, hc⟩
    · rw [takeWords_hop attr hops w words hw]
      refine ih _ _ hk ha fun h hm => ?_
      rcases List.mem_append.1 hm with hm | hm
      · exact hh h hm
      · rw [List.mem_singleton.1 hm]
        exact ha
    · rw [takeWords_attr attr hops w words hw]
      exact ih _ _ hk hc hh

/-! ### The checks on the HOPs (01 R8) -/

/-- Every HOP met the checks when it was read, given the HOPs before it. -/
def HopsOk (hops : List Hop) : Prop := ∀ l h r, hops = l ++ h :: r → hopOk l h = true

theorem hopsOk_nil : HopsOk [] := fun _ _ _ h => by simp at h

theorem hopsOk_append (hops : List Hop) (h : Hop) : HopsOk (hops ++ [h]) ↔ HopsOk hops ∧ hopOk hops h = true := by
  constructor
  · intro hok
    refine ⟨fun l g r hl => hok l g (r ++ [h]) (by simp [hl]), hok hops h [] rfl⟩
  · rintro ⟨hok, hlast⟩ l g r hl
    rcases List.eq_nil_or_concat r with rfl | ⟨r, x, rfl⟩
    · obtain ⟨rfl, hg⟩ := List.append_inj' hl rfl
      obtain rfl := List.singleton_inj.1 hg
      exact hlast
    · have hl' : hops ++ [h] = (l ++ g :: r) ++ [x] := by simp [hl]
      exact hok l g r (List.append_inj' hl' rfl).1

theorem HopsOk.of_extends {l hops : List Hop} (h : HopsOk hops) (hp : l <+: hops) : HopsOk l := by
  obtain ⟨r, rfl⟩ := hp
  exact fun l' g r' hl => h l' g (r' ++ r) (by simp [hl])

theorem hopOk_iff (hops : List Hop) (h : Hop) : hopOk hops h = true ↔
    (h.node ≤ 1023 ∧ h.spanLoss ≤ 5000 ∧ h.hopLoss ≤ 2000) ∧ hops.length < 32 ∧ (∀ g ∈ hops, g.span ≠ 4095) ∧
    (hops = [] → h.attr.stamping = true) ∧
    (h.attr.stamping = true → ∀ g ∈ hops, g.attr.stamping = true → g.node ≠ h.node) := by
  simp only [hopOk, Bool.and_eq_true, Bool.or_eq_true, Bool.not_eq_true', List.all_eq_true, decide_eq_true_eq, List.isEmpty_eq_false_iff]
  grind

/-- What the table asks of the HOPs before the END word is looked at. -/
structure HopChecks (hops : List Hop) : Prop where
  count : hops.length ≤ 32
  ranges : ∀ h ∈ hops, h.node ≤ 1023 ∧ h.spanLoss ≤ 5000 ∧ h.hopLoss ≤ 2000
  first : ∀ h, hops.head? = some h → h.attr.stamping = true
  spans : ∀ h ∈ hops.dropLast, h.span ≠ 4095
  nodes : ((hops.filter (fun h => h.attr.stamping)).map (fun h => h.node)).Nodup

theorem stampingNodes_append (hops : List Hop) (h : Hop) :
    (((hops ++ [h]).filter (fun h => h.attr.stamping)).map (fun h => h.node)).Nodup ↔
      ((hops.filter (fun h => h.attr.stamping)).map (fun h => h.node)).Nodup ∧
      (h.attr.stamping = true → ∀ g ∈ hops, g.attr.stamping = true → g.node ≠ h.node) := by
  by_cases hs : h.attr.stamping = true
  · have hnot : (∀ n, ∀ g ∈ hops, g.attr.stamping = true → g.node = n → n ≠ h.node) ↔
        ∀ g ∈ hops, g.attr.stamping = true → g.node ≠ h.node :=
      ⟨fun hall g hg hs => hall _ g hg hs rfl, fun hall _ g hg hs heq => heq ▸ hall g hg hs⟩
    simpa [List.nodup_append, hs] using fun _ => hnot
  · simp [hs]

theorem hopsOk_iff (hops : List Hop) : HopsOk hops ↔ HopChecks hops := by
  induction hops using List.reverseRecOn with
  | nil => exact ⟨fun _ => ⟨by simp, nofun, nofun, nofun, by simp⟩, fun _ l h r hl => by simp at hl⟩
  | append_singleton hops h ih =>
    rw [hopsOk_append, ih, hopOk_iff]
    constructor
    · rintro ⟨hc, hr, hlen, hs, hf, hn⟩
      refine ⟨by simpa using hlen, ?_, ?_, by simpa using hs, (stampingNodes_append hops h).2 ⟨hc.nodes, hn⟩⟩
      · exact List.forall_mem_append.2 ⟨hc.ranges, List.forall_mem_singleton.2 hr⟩
      · intro g hg
        cases hops with
        | nil =>
          obtain rfl : h = g := Option.some.inj hg
          exact hf rfl
        | cons x l => exact hc.first g hg
    · intro hc
      have hlen : hops.length + 1 ≤ 32 := by simpa using hc.count
      have hspans : ∀ g ∈ hops, g.span ≠ 4095 := by simpa using hc.spans
      obtain ⟨hranges, hr⟩ := List.forall_mem_append.1 hc.ranges
      obtain ⟨hnodes, hn⟩ := (stampingNodes_append hops h).1 hc.nodes
      refine ⟨⟨by omega, hranges, ?_, fun g hg => hspans g (List.mem_of_mem_dropLast hg), hnodes⟩,
        hr h (List.mem_singleton_self h), by omega, hspans, ?_, hn⟩
      · intro g hg
        exact hc.first g (by simp [List.head?_append, hg])
      · rintro rfl
        exact hc.first h rfl

theorem endOk_iff (hops : List Hop) : endOk hops = true ↔
    2 ≤ hops.length ∧ ∀ h, hops.getLast? = some h → h.attr.stamping = true ∧ h.span = 4095 := by
  rcases List.eq_nil_or_concat hops with rfl | ⟨l, h, rfl⟩
  · simp [endOk]
  · simp [endOk]

/-! ### The scan of the words (01 R9) -/

/-- Known words whose HOPs meet the checks decide nothing. -/
theorem routeScan_known (attr : Attr) (hops : List Hop) (words rest : List RouteWord) (hk : ∀ w ∈ words, KnownWord w)
    (hok : HopsOk (takeWords attr hops words).2) :
    routeScan attr hops (words ++ rest) =
      routeScan (takeWords attr hops words).1 (takeWords attr hops words).2 rest := by
  induction words generalizing attr hops with
  | nil => rfl
  | cons w words ih =>
    obtain ⟨hw, hk⟩ := List.forall_mem_cons.1 hk
    rcases hw with hw | ⟨hw, hc⟩
    · rw [takeWords_hop attr hops w words hw] at hok ⊢
      have hhop : hopOk hops (hopOfWord attr w) = true :=
        ((hopsOk_append _ _).1 (hok.of_extends (takeWords_extends _ _ _))).2
      rw [← ih _ _ hk hok]
      simp [routeScan, routeStep, hw, hhop]
    · rw [takeWords_attr attr hops w words hw] at hok ⊢
      rw [← ih _ _ hk hok]
      simp [routeScan, routeStep, hw, hc]

/-- A route found valid ends at an END word after known words, whose HOPs meet the checks. -/
theorem routeScan_valid (attr : Attr) (hops : List Hop) (words : List RouteWord) (r : Route) (hok : HopsOk hops)
    (h : routeScan attr hops words = .valid r) :
    ∃ before last rest, words = before ++ last :: rest ∧ (∀ w ∈ before, KnownWord w) ∧ routeBits last 1 0 = 3 ∧
      r.hops = (takeWords attr hops before).2 ∧ HopsOk r.hops ∧ endOk r.hops = true := by
  induction words generalizing attr hops with
  | nil => cases h
  | cons w words ih =>
    by_cases h1 : routeBits w 1 0 = 1
    · by_cases hhop : hopOk hops (hopOfWord attr w) = true
      · simp only [routeScan, routeStep, h1, hhop, if_true] at h
        obtain ⟨before, last, rest, rfl, hk, hlast, hr, hchecks⟩ := ih _ _ ((hopsOk_append _ _).2 ⟨hok, hhop⟩) h
        refine ⟨w :: before, last, rest, rfl, List.forall_mem_cons.2 ⟨.inl h1, hk⟩, hlast, ?_, hchecks⟩
        rw [takeWords_hop attr hops w before h1, hr]
      · simp [routeScan, routeStep, h1, hhop] at h
    by_cases h2 : routeBits w 1 0 = 2
    · by_cases hc : channelOk (attrOfWord w).channel = true
      · simp only [routeScan, routeStep, h2, hc, if_true] at h
        obtain ⟨before, last, rest, rfl, hk, hlast, hr, hchecks⟩ := ih _ _ hok h
        refine ⟨w :: before, last, rest, rfl, List.forall_mem_cons.2 ⟨.inr ⟨h2, hc⟩, hk⟩, hlast, ?_, hchecks⟩
        rw [takeWords_attr attr hops w before h2, hr]
      · simp [routeScan, routeStep, h2, hc] at h
    by_cases h3 : routeBits w 1 0 = 3
    · by_cases hend : endOk hops = true
      · obtain rfl : Route.mk hops = r := by simpa [routeScan, routeStep, h3, hend] using h
        exact ⟨[], w, words, rfl, nofun, h3, rfl, hok, hend⟩
      · simp [routeScan, routeStep, h3, hend] at h
    · simp [routeScan, routeStep, h1, h2, h3] at h

/-- A route of two or more HOPs, the first and the last STAMPING, expects at least two of them. -/
theorem two_le_expected (hops : List Hop) (hlen : 2 ≤ hops.length) (hfirst : ∀ h, hops.head? = some h → h.attr.stamping = true)
    (hlast : ∀ h, hops.getLast? = some h → h.attr.stamping = true) :
    2 ≤ (hops.filter (fun h => h.attr.stamping)).length := by
  cases hops with
  | nil => simp at hlen
  | cons x l =>
    rcases List.eq_nil_or_concat l with rfl | ⟨l, y, rfl⟩
    · simp at hlen
    · have hx : x.attr.stamping = true := hfirst x rfl
      have hy : y.attr.stamping = true := hlast y (by rw [List.concat_eq_append, ← List.cons_append, List.getLast?_concat])
      simp [hx, hy]

/-- What a scan has found stands as the read's status, but where the length ends the read. -/
theorem routeStatus_valid_iff (attr : Attr) (length : Nat) (words : List RouteWord) (r : Route) :
    routeStatus attr length words = .valid r ↔ routeScan attr [] words = .valid r := by
  unfold routeStatus
  cases routeScan attr [] words with
  | more a hs => by_cases h : length ≤ words.length <;> simp [h]
  | invalid => simp
  | valid r' => simp

theorem routeStatus_more (attr a : Attr) (length : Nat) (words : List RouteWord) (hs : List Hop) (hl : words.length < length)
    (h : routeScan attr [] words = .more a hs) : routeStatus attr length words = .more a hs := by
  simp [routeStatus, h, Nat.not_le.2 hl]

theorem routeStatus_ended (attr a : Attr) (length : Nat) (words : List RouteWord) (hs : List Hop) (hl : length ≤ words.length) :
    routeStatus attr length words ≠ .more a hs := by
  unfold routeStatus
  cases routeScan attr [] words <;> simp [hl]

/-! ### The words read (01 R9) -/

theorem channelOk_iff (n : Nat) : channelOk n = true ↔ n ≤ 95 ∨ n = 127 := by
  simp [channelOk]

theorem recordRouteOk_iff (poolSize : Nat) (w8 : Word) : recordRouteOk poolSize w8 = true ↔
    2 ≤ bits w8 23 16 ∧ bits w8 23 16 ≤ 48 ∧ bits w8 15 0 + bits w8 23 16 ≤ poolSize ∧
    (bits w8 30 24 ≤ 95 ∨ bits w8 30 24 = 127) := by
  simp only [recordRouteOk, Bool.and_eq_true, decide_eq_true_eq, channelOk_iff, and_assoc]
  rfl

end Sys2Proof.Machine

open Sys2Proof Sys2Proof.Machine

/-- Settles O40: the scan of the words takes the HOPs one by one, each checked against those before it (`HopsOk`), and those checks
together are the table's (`hopsOk_iff`). -/
theorem routeReadFollowsTheChecks : Obligations.RouteReadFollowsTheChecks := by
  refine ⟨⟨?_, ?_⟩, fun attr length words a hs hl => routeStatus_ended attr a length words hs hl, channelOk_iff, ?_⟩
  · intro w4 w8 length words r hchannel hvalid
    have hscan := (routeStatus_valid_iff _ _ _ _).1 hvalid
    obtain ⟨before, last, rest, hwords, hknown, hend, hr, hok, hendOk⟩ := routeScan_valid _ [] words r hopsOk_nil hscan
    have hc := (hopsOk_iff r.hops).1 hok
    obtain ⟨htwo, hlast⟩ := (endOk_iff r.hops).1 hendOk
    have hchannels := takeWords_channel (startAttr w4 w8) [] before hknown hchannel nofun
    have hspans : r.spanList.length = r.hops.length - 1 := by simp [Route.spanList]
    refine ⟨htwo, hc.count, fun h hm => ?_, hc.first, hlast, ?_, hc.nodes, ?_, ?_,
      two_le_expected r.hops htwo hc.first fun h hh => (hlast h hh).1, before, last, rest, hwords, hknown, hend, hr⟩
    · obtain ⟨hnode, hspan, hhop⟩ := hc.ranges h hm
      exact ⟨hnode, hspan, hhop, hchannels h (hr ▸ hm)⟩
    · exact List.forall_mem_map.2 hc.spans
    · omega
    · have hcount := hc.count
      omega
  · intro attr length before last hops hlength hknown hend htwo hcount hranges hfirst hlast hspans hnodes
    have hok : HopsOk hops := (hopsOk_iff hops).2 ⟨hcount, hranges, hfirst, hspans, hnodes⟩
    have hendOk : endOk hops = true := (endOk_iff hops).2 ⟨htwo, hlast⟩
    constructor
    · rw [routeStatus_valid_iff, routeScan_known attr [] before [last] hknown hok, show (takeWords attr [] before).2 = hops from rfl]
      simp [routeScan, routeStep, hend, hendOk]
    · intro n hn
      have hshort : (before.take n).length < length := (List.length_take_le n before).trans_lt (hn.trans_lt hlength)
      have htake : HopsOk (takeWords attr [] (before.take n)).2 := hok.of_extends (takeWords_take_extends attr [] before n)
      have hscan := routeScan_known attr [] (before.take n) [] (fun w hw => hknown w (List.mem_of_mem_take hw)) htake
      rw [List.append_nil] at hscan
      exact ⟨_, _, routeStatus_more _ _ _ _ _ hshort hscan⟩
  · intro s c rr data word
    refine ⟨fun h => ?_, fun w4 h => ⟨fun ok => ?_, fun no => ?_⟩, fun w4 w8 more h => ⟨fun hlow => ?_, fun lo hlow => ?_⟩⟩
    · simp [routeAdvance, h]
    · have hok := (recordRouteOk_iff s.params.poolSize data).2 ok
      simp only [routeAdvance, h, hok, if_true]
      rfl
    · have hno := mt (recordRouteOk_iff s.params.poolSize data).1 no
      simp [routeAdvance, h, hno]
    · simp only [routeAdvance, h, hlow]
      rfl
    · refine ⟨fun a hs hst => ?_, fun hst => ?_, fun r hst => ?_⟩
      all_goals
        simp only [routeAdvance, h, hlow]
        rw [show routeStatus (startAttr w4 w8) (routeLength w8) _ = _ from hst]
      rfl

end

section
/-! PROOF. The Span Fence Map and the withdrawal of the entries that a raise newly fences (02 R40 to R42, 04 R84). -/

namespace Sys2Proof.Machine

/-! ### Counts of the fence (02 R40) -/

theorem sparseGet_raiseOne (f : List (Nat × Nat)) (span x : Nat) :
    sparseGet 0 (raiseOne f span) x = sparseGet 0 f x + (if x = span then 1 else 0) := by
  by_cases h : x = span
  · subst h
    simp [raiseOne]
  · simp [raiseOne, sparseGet_put_other _ _ _ _ _ h, h]

theorem sparseGet_lowerOne (f : List (Nat × Nat)) (span x : Nat) :
    sparseGet 0 (lowerOne f span) x = sparseGet 0 f x - (if x = span then 1 else 0) := by
  by_cases h : x = span
  · subst h
    simp [lowerOne]
  · simp [lowerOne, sparseGet_put_other _ _ _ _ _ h, h]

/-- Spans without a repeat: each count rises by one. -/
theorem sparseGet_foldl_raiseOne (spans : List Nat) (hn : spans.Nodup) (f : List (Nat × Nat)) (x : Nat) :
    sparseGet 0 (spans.foldl raiseOne f) x = sparseGet 0 f x + (if x ∈ spans then 1 else 0) := by
  induction spans generalizing f with
  | nil => simp
  | cons a l ih =>
    obtain ⟨ha, hl⟩ := List.nodup_cons.1 hn
    rw [List.foldl_cons, ih hl, sparseGet_raiseOne]
    by_cases hx : x = a
    · simp [hx, ha]
    · simp [hx]

/-- Spans without a repeat: each count falls by one. -/
theorem sparseGet_foldl_lowerOne (spans : List Nat) (hn : spans.Nodup) (f : List (Nat × Nat)) (x : Nat) :
    sparseGet 0 (spans.foldl lowerOne f) x = sparseGet 0 f x - (if x ∈ spans then 1 else 0) := by
  induction spans generalizing f with
  | nil => simp
  | cons a l ih =>
    obtain ⟨ha, hl⟩ := List.nodup_cons.1 hn
    rw [List.foldl_cons, ih hl, sparseGet_lowerOne]
    by_cases hx : x = a
    · simp [hx, ha]
    · simp [hx]

/-! ### Withdrawals (04 R84) -/

/-- A withdrawal reaches the campaigns, the Probe Table, the Custody Unit and the queues of accesses alone. -/
theorem withdraw_frame (i : Fin 64) (s : State) : withdraw i s =
    { s with ctrl := (withdraw i s).ctrl, probes := (withdraw i s).probes, custody := (withdraw i s).custody
             master := (withdraw i s).master } := by
  unfold withdraw
  rw [closeInterests_frame, (releaseEntry_move i s).frame]

/-- The entry withdrawn is FREE and keeps its generation alone (04 R71); every other entry stands. -/
theorem withdraw_entry (i j : Fin 64) (s : State) : (withdraw i s).entry j =
    if j = i then { generation := (s.entry i).generation } else s.entry j := by
  unfold withdraw
  rw [closeInterests_frame, (releaseEntry_move i s).frame]
  exact entryFreed_entry i j s

theorem foldl_withdraw_frame (l : List (Fin 64)) (s : State) :
    let t := l.foldl (fun t i => withdraw i t) s
    t = { s with ctrl := t.ctrl, probes := t.probes, custody := t.custody, master := t.master } := by
  induction l generalizing s with
  | nil => rfl
  | cons i l ih =>
    intro t
    have hrest := congrArg (fun u : State => ({ u with
      ctrl := t.ctrl, probes := t.probes, custody := t.custody, master := t.master } : State)) (withdraw_frame i s)
    exact (ih (withdraw i s)).trans hrest

theorem foldl_withdraw_entry (l : List (Fin 64)) (s : State) (j : Fin 64) :
    (l.foldl (fun t i => withdraw i t) s).entry j =
      if j ∈ l then { generation := (s.entry j).generation } else s.entry j := by
  induction l generalizing s with
  | nil => simp
  | cons i l ih =>
    rw [List.foldl_cons, ih, withdraw_entry]
    by_cases hj : j = i
    · simp [hj]
    · simp [hj]

/-- An entry that a withdrawal of spans reaches: open, and holding one of them (04 R84). -/
def State.reachedBy (s : State) (spans : List Nat) (i : Fin 64) : Bool :=
  (s.entry i).state.isOpen && (s.entry i).spans.any (fun x => spans.contains x)

theorem reachedBy_iff (s : State) (spans : List Nat) (i : Fin 64) :
    s.reachedBy spans i = true ↔ (s.entry i).state.isOpen = true ∧ ∃ x ∈ (s.entry i).spans, x ∈ spans := by
  simp [State.reachedBy]

/-- Each withdrawal frees its own entry alone, so those that a walk of the entries reaches are those reached at its beginning. -/
theorem foldl_reached_eq (spans : List Nat) (l : List (Fin 64)) (hl : l.Nodup) (s : State) :
    l.foldl (fun t i => if t.reachedBy spans i then withdraw i t else t) s =
      (l.filter (s.reachedBy spans)).foldl (fun t i => withdraw i t) s := by
  induction l generalizing s with
  | nil => rfl
  | cons i l ih =>
    obtain ⟨hi, hl⟩ := List.nodup_cons.1 hl
    rw [List.foldl_cons, ih hl]
    cases hr : s.reachedBy spans i with
    | false => simp [hr]
    | true =>
      have same : ∀ j ∈ l, (withdraw i s).reachedBy spans j = s.reachedBy spans j := by
        intro j hj
        have hne : j ≠ i := fun h => hi (h ▸ hj)
        simp only [State.reachedBy, withdraw_entry, if_neg hne]
      simp [hr, List.filter_congr same]

theorem withdrawSpans_eq (spans : List Nat) (s : State) : withdrawSpans spans s =
    ((List.finRange 64).filter (s.reachedBy spans)).foldl (fun t i => withdraw i t) s :=
  foldl_reached_eq spans _ (List.nodup_finRange 64) s

/-! ### Raising and lowering a fence (02 R41 R42) -/

/-- The entries that a raise of spans withdraws: those reached by the spans it newly fences (02 R41). -/
def State.hitBy (s : State) (spans : List Nat) (i : Fin 64) : Prop :=
  (s.entry i).state.isOpen = true ∧ ∃ x ∈ (s.entry i).spans, x ∈ spans ∧ s.fenceCount x = 0

theorem reachedBy_newlyFenced_iff (s : State) (spans : List Nat) (i : Fin 64) :
    s.reachedBy (newlyFenced s spans) i = true ↔ s.hitBy spans i := by
  simp [reachedBy_iff, newlyFenced, State.hitBy]

/-- A raise is its counts and the withdrawals of the entries it hits, in ascending slot. -/
theorem raiseFence_eq (spans : List Nat) (s : State) : raiseFence spans s =
    ((List.finRange 64).filter (s.reachedBy (newlyFenced s spans))).foldl (fun t i => withdraw i t)
      (setFence (spans.foldl raiseOne s.sched.fence) s) :=
  withdrawSpans_eq (newlyFenced s spans) (setFence (spans.foldl raiseOne s.sched.fence) s)

theorem raiseFence_frame (spans : List Nat) (s : State) :
    let t := raiseFence spans s
    t = { s with sched := { s.sched with fence := spans.foldl raiseOne s.sched.fence }
                 ctrl := t.ctrl, probes := t.probes, custody := t.custody, master := t.master } := by
  intro t
  have ht : t = _ := raiseFence_eq spans s
  rw [ht]
  exact foldl_withdraw_frame _ _

@[simp] theorem raiseFence_sched (spans : List Nat) (s : State) :
    (raiseFence spans s).sched = { s.sched with fence := spans.foldl raiseOne s.sched.fence } :=
  congrArg (·.sched) (raiseFence_frame spans s)

@[simp] theorem raiseFence_clock (spans : List Nat) (s : State) : (raiseFence spans s).clock = s.clock :=
  congrArg (·.clock) (raiseFence_frame spans s)

@[simp] theorem raiseFence_window (spans : List Nat) (s : State) (w : Fin 64) : (raiseFence spans s).window w = s.window w := by
  simp [State.window]

theorem raiseFence_fenceCount (spans : List Nat) (hn : spans.Nodup) (s : State) (x : Nat) :
    (raiseFence spans s).fenceCount x = s.fenceCount x + (if x ∈ spans then 1 else 0) := by
  simp [State.fenceCount, sparseGet_foldl_raiseOne spans hn]

theorem raiseFence_entry_hit (spans : List Nat) (s : State) (i : Fin 64) (h : s.hitBy spans i) :
    (raiseFence spans s).entry i = { generation := (s.entry i).generation } := by
  rw [raiseFence_eq, foldl_withdraw_entry, if_pos]
  · rfl
  · simpa [reachedBy_newlyFenced_iff] using h

theorem raiseFence_entry_stands (spans : List Nat) (s : State) (i : Fin 64) (h : ¬ s.hitBy spans i) :
    (raiseFence spans s).entry i = s.entry i := by
  rw [raiseFence_eq, foldl_withdraw_entry, if_neg]
  · rfl
  · simpa [reachedBy_newlyFenced_iff] using h

/-- The entries hit, in rising order, are the ones withdrawn. -/
theorem raiseFence_withdraws (spans : List Nat) (s : State) (l : List (Fin 64)) (hl : l.Pairwise (· < ·))
    (hm : ∀ i, i ∈ l ↔ s.hitBy spans i) :
    raiseFence spans s = l.foldl (fun t i => withdraw i t) (setFence (raiseFence spans s).sched.fence s) := by
  have hsame : (List.finRange 64).filter (s.reachedBy (newlyFenced s spans)) = l := by
    refine ((List.pairwise_lt_finRange 64).filter _).eq_of_mem_iff hl fun i => ?_
    simp [hm, reachedBy_newlyFenced_iff]
  rw [raiseFence_sched, raiseFence_eq, hsame]

theorem lowerFence_fenceCount (spans : List Nat) (hn : spans.Nodup) (s : State) (x : Nat) :
    (lowerFence spans s).fenceCount x = s.fenceCount x - (if x ∈ spans then 1 else 0) :=
  sparseGet_foldl_lowerOne spans hn s.sched.fence x

end Sys2Proof.Machine
end

section
/-! PROOF. The change of a window and the evaluation of one window and of all (02 R26 to R28). -/

namespace Sys2Proof.Machine

/-! ### A window changed (02 R37) -/

/-- The list of phase words due with a window's joined, once. -/
def dueWith (w : Fin 64) (l : List (Fin 64)) : List (Fin 64) := if w ∈ l then l else l ++ [w]

theorem mem_dueWith (w v : Fin 64) (l : List (Fin 64)) : v ∈ dueWith w l ↔ v = w ∨ v ∈ l := by
  unfold dueWith
  split
  · next h => exact ⟨.inr, fun hv => hv.elim (· ▸ h) id⟩
  · simp [or_comm]

theorem markPhase_eq (w : Fin 64) (s : State) :
    markPhase w s = { s with sched := { s.sched with phaseDue := dueWith w s.sched.phaseDue } } := by
  unfold markPhase dueWith
  by_cases h : w ∈ s.sched.phaseDue <;> simp [h]

/-- A change of a window reaches the Window Table and the phase words due alone. -/
theorem changeWindow_eq (w : Fin 64) (f : Window → Window) (s : State) : changeWindow w f s =
    { s with sched := { s.sched with windows := vput s.sched.windows w (f (s.window w)), phaseDue := dueWith w s.sched.phaseDue } } :=
  markPhase_eq w (modWindow w f s)

@[simp] theorem changeWindow_window (w v : Fin 64) (f : Window → Window) (s : State) :
    (changeWindow w f s).window v = if v = w then f (s.window w) else s.window v := by
  rw [changeWindow_eq]
  exact vput_get _ _ _ _

@[simp] theorem changeWindow_phaseDue (w : Fin 64) (f : Window → Window) (s : State) :
    (changeWindow w f s).sched.phaseDue = dueWith w s.sched.phaseDue := by rw [changeWindow_eq]

@[simp] theorem changeWindow_fence (w : Fin 64) (f : Window → Window) (s : State) :
    (changeWindow w f s).sched.fence = s.sched.fence := by rw [changeWindow_eq]

@[simp] theorem changeWindow_fenceCount (w : Fin 64) (f : Window → Window) (s : State) (x : Nat) :
    (changeWindow w f s).fenceCount x = s.fenceCount x := by rw [changeWindow_eq]; rfl

@[simp] theorem changeWindow_clock (w : Fin 64) (f : Window → Window) (s : State) : (changeWindow w f s).clock = s.clock := by
  rw [changeWindow_eq]

theorem changeWindow_frame (w : Fin 64) (f : Window → Window) (s : State) :
    let t := changeWindow w f s
    t = { s with sched := { s.sched with windows := t.sched.windows, phaseDue := t.sched.phaseDue } } := by
  intro t
  simp only [t, changeWindow_eq]

theorem vput_vput {α : Type} {n : Nat} (v : Vector α n) (i : Fin n) (x y : α) : vput (vput v i x) i y = vput v i y :=
  table_ext _ _ fun j => by simp only [vput_get]; split <;> rfl

/-- Two changes of one window are one. -/
theorem changeWindow_modWindow (w : Fin 64) (f g : Window → Window) (s : State) :
    changeWindow w f (modWindow w g s) = changeWindow w (fun x => f (g x)) s := by
  simp only [changeWindow_eq, modWindow_window, if_true]
  simp only [modWindow, vput_vput]

/-! ### The settle test (02 R28) -/

/-- The settle expiry: the window is QUEUED, its fence is lowered and it waits for a campaign slot. -/
theorem settleCheck_expires (w : Fin 64) (s : State) (hp : (s.window w).phase = .settling)
    (he : (s.window w).expiry ≤ s.clock.netTime) : settleCheck w s =
    { s with sched := { s.sched with
      windows := vput s.sched.windows w { s.window w with phase := .queued }
      fence := (s.window w).spans.foldl lowerOne s.sched.fence
      slotWait := s.sched.slotWait ++ [w]
      phaseDue := dueWith w s.sched.phaseDue } } := by
  simp only [settleCheck, hp, he, and_self, if_true, lowerFence, setFence, changeWindow_eq]

/-- The settle test reaches the Window Scheduler alone. -/
theorem settleCheck_frame (w : Fin 64) (s : State) : settleCheck w s = { s with sched := (settleCheck w s).sched } := by
  by_cases h : (s.window w).phase = .settling ∧ (s.window w).expiry ≤ s.clock.netTime
  · rw [settleCheck_expires w s h.1 h.2]
  · rw [settleCheck_waits w s h]

theorem settleCheck_window_other (w v : Fin 64) (s : State) (hv : v ≠ w) : (settleCheck w s).window v = s.window v := by
  by_cases h : (s.window w).phase = .settling ∧ (s.window w).expiry ≤ s.clock.netTime
  · rw [settleCheck_expires w s h.1 h.2]
    exact vput_get_other _ _ _ _ hv
  · rw [settleCheck_waits w s h]

/-- A SETTLING window after its settle test. -/
theorem settleCheck_window_settling (w : Fin 64) (s : State) (hp : (s.window w).phase = .settling) :
    (settleCheck w s).window w =
      { s.window w with phase := if (s.window w).expiry ≤ s.clock.netTime then .queued else .settling } := by
  by_cases he : (s.window w).expiry ≤ s.clock.netTime
  · rw [settleCheck_expires w s hp he, if_pos he]
    exact vput_get_same _ _ _
  · rw [settleCheck_waits w s (fun h => he h.2), if_neg he, ← hp]

/-- A settle test marks the window's phase word or none, and forgets none. -/
theorem mem_settleCheck_phaseDue (w v : Fin 64) (s : State) (h : v ∈ s.sched.phaseDue) : v ∈ (settleCheck w s).sched.phaseDue := by
  by_cases hc : (s.window w).phase = .settling ∧ (s.window w).expiry ≤ s.clock.netTime
  · rw [settleCheck_expires w s hc.1 hc.2]
    exact (mem_dueWith w v _).2 (.inr h)
  · rwa [settleCheck_waits w s hc]

/-! ### The evaluation of one window (02 R27) -/

@[simp] theorem toSettling_window_same (w : Fin 64) (s : State) : (toSettling w s).window w =
    { s.window w with phase := .settling, expiry := timePlus s.clock.netTime (s.window w).settle } := by
  simp [toSettling]

@[simp] theorem toSettling_clock (w : Fin 64) (s : State) : (toSettling w s).clock = s.clock := changeWindow_clock _ _ _

theorem evalWindow_pending_settles (w : Fin 64) (s : State) (hp : (s.window w).phase = .pending)
    (hc : (s.window w).closeTime ≤ s.clock.netTime) :
    evalWindow w s = settleCheck w (raiseFence (s.window w).spans (toSettling w s)) := by
  rw [evalWindow, openCheck_settles w s hp hc]

theorem evalWindow_pending_opens (w : Fin 64) (s : State) (hp : (s.window w).phase = .pending)
    (hc : s.clock.netTime < (s.window w).closeTime) (ho : (s.window w).openTime ≤ s.clock.netTime) :
    evalWindow w s = raiseFence (s.window w).spans (changeWindow w (fun x => { x with phase := .opened }) s) := by
  rw [evalWindow, openCheck_opens w s hp hc ho, settleCheck_waits]
  simp

theorem evalWindow_pending_waits (w : Fin 64) (s : State) (hp : (s.window w).phase = .pending)
    (hc : s.clock.netTime < (s.window w).closeTime) (ho : s.clock.netTime < (s.window w).openTime) : evalWindow w s = s := by
  simp [evalWindow, openCheck, settleCheck, hp, BitVec.not_le.2 hc, BitVec.not_le.2 ho]

theorem evalWindow_opened_settles (w : Fin 64) (s : State) (hp : (s.window w).phase = .opened)
    (hc : (s.window w).closeTime ≤ s.clock.netTime) : evalWindow w s = settleCheck w (toSettling w s) := by
  rw [evalWindow, openCheck_closes w s hp hc]

theorem evalWindow_opened_waits (w : Fin 64) (s : State) (hp : (s.window w).phase = .opened)
    (hc : s.clock.netTime < (s.window w).closeTime) : evalWindow w s = s := by
  simp [evalWindow, openCheck, settleCheck, hp, BitVec.not_le.2 hc]

theorem evalWindow_settling (w : Fin 64) (s : State) (hp : (s.window w).phase = .settling) :
    evalWindow w s = settleCheck w s := by
  rw [evalWindow, openCheck_rests w s (by simp [hp]) (by simp [hp])]

theorem evalWindow_rests (w : Fin 64) (s : State) (h1 : (s.window w).phase ≠ .pending) (h2 : (s.window w).phase ≠ .opened)
    (h3 : (s.window w).phase ≠ .settling) : evalWindow w s = s := by
  rw [evalWindow, openCheck_rests w s h1 h2, settleCheck_waits w s (fun h => h3 h.1)]

/-- Every evaluation of a window, by its phase and its times (02 R27 R28). -/
theorem evalWindow_cases (w : Fin 64) (s : State) :
    evalWindow w s = s ∨ evalWindow w s = settleCheck w s ∧ (s.window w).phase = .settling ∨
    evalWindow w s = settleCheck w (toSettling w s) ∧ (s.window w).phase = .opened ∨
    (s.window w).phase = .pending ∧
      (evalWindow w s = raiseFence (s.window w).spans (changeWindow w (fun x => { x with phase := .opened }) s) ∨
        evalWindow w s = settleCheck w (raiseFence (s.window w).spans (toSettling w s))) := by
  by_cases hset : (s.window w).phase = .settling
  · exact .inr (.inl ⟨evalWindow_settling w s hset, hset⟩)
  by_cases hopen : (s.window w).phase = .opened
  · by_cases hc : (s.window w).closeTime ≤ s.clock.netTime
    · exact .inr (.inr (.inl ⟨evalWindow_opened_settles w s hopen hc, hopen⟩))
    · exact .inl (evalWindow_opened_waits w s hopen (BitVec.not_le.1 hc))
  by_cases hpend : (s.window w).phase = .pending
  · by_cases hc : (s.window w).closeTime ≤ s.clock.netTime
    · exact .inr (.inr (.inr ⟨hpend, .inr (evalWindow_pending_settles w s hpend hc)⟩))
    have hc := BitVec.not_le.1 hc
    by_cases ho : (s.window w).openTime ≤ s.clock.netTime
    · exact .inr (.inr (.inr ⟨hpend, .inl (evalWindow_pending_opens w s hpend hc ho)⟩))
    · exact .inl (evalWindow_pending_waits w s hpend hc (BitVec.not_le.1 ho))
  · exact .inl (evalWindow_rests w s hpend hopen hset)

end Sys2Proof.Machine
end

section
/-! PROOF. Where the evaluation of the windows moves one (02 R26 to R28), the clock's events (02 R24 R25) and the fence (02 R40 to R42). -/

namespace Sys2Proof.Machine

/-! ### The evaluation and the other windows -/

theorem toSettling_window_other (w v : Fin 64) (s : State) (hv : v ≠ w) : (toSettling w s).window v = s.window v := by
  simp [toSettling, hv]

theorem evalWindow_window_other (w v : Fin 64) (s : State) (hv : v ≠ w) : (evalWindow w s).window v = s.window v := by
  rcases evalWindow_cases w s with h | ⟨h, -⟩ | ⟨h, -⟩ | ⟨-, h | h⟩ <;> rw [h]
  · exact settleCheck_window_other w v s hv
  · rw [settleCheck_window_other w v _ hv, toSettling_window_other w v s hv]
  · simp [hv]
  · rw [settleCheck_window_other w v _ hv, raiseFence_window, toSettling_window_other w v s hv]

/-! ### No window moves back (02 R26) -/

/-- A window moves on along the order of its phases, or stays, with its times and its spans. -/
structure Window.MovesOn (x y : Window) : Prop where
  phase : x.phase.code ≤ y.phase.code
  openTime : y.openTime = x.openTime
  closeTime : y.closeTime = x.closeTime
  spans : y.spans = x.spans

theorem Window.MovesOn.refl (x : Window) : x.MovesOn x := ⟨Nat.le_refl _, rfl, rfl, rfl⟩

theorem Window.MovesOn.trans {x y z : Window} (h : x.MovesOn y) (k : y.MovesOn z) : x.MovesOn z :=
  ⟨h.phase.trans k.phase, k.openTime.trans h.openTime, k.closeTime.trans h.closeTime, k.spans.trans h.spans⟩

/-- A SETTLING window moves on at its settle test. -/
theorem settleCheck_movesOn (w : Fin 64) (s : State) (hp : (s.window w).phase = .settling) :
    (s.window w).MovesOn ((settleCheck w s).window w) := by
  rw [settleCheck_window_settling w s hp]
  refine ⟨?_, rfl, rfl, rfl⟩
  rw [hp]
  split
  · exact (by decide : Phase.settling.code ≤ Phase.queued.code)
  · exact Nat.le_refl _

theorem toSettling_movesOn (w : Fin 64) (s : State) (hp : (s.window w).phase.code ≤ Phase.settling.code) :
    (s.window w).MovesOn ((toSettling w s).window w) := by
  rw [toSettling_window_same]
  exact ⟨hp, rfl, rfl, rfl⟩

/-- Every case of the evaluation moves its window on. -/
theorem evalWindow_movesOn (w v : Fin 64) (s : State) : (s.window v).MovesOn ((evalWindow w s).window v) := by
  by_cases hv : v = w
  case neg =>
    rw [evalWindow_window_other w v s hv]
    exact .refl _
  subst hv
  rcases evalWindow_cases v s with h | ⟨h, hp⟩ | ⟨h, hp⟩ | ⟨hp, h | h⟩ <;> rw [h]
  · exact .refl _
  · exact settleCheck_movesOn v s hp
  · exact (toSettling_movesOn v s (by rw [hp]; decide)).trans (settleCheck_movesOn v _ (by simp))
  · simp only [raiseFence_window, changeWindow_window, if_true]
    exact ⟨hp ▸ (by decide : Phase.pending.code ≤ Phase.opened.code), rfl, rfl, rfl⟩
  · refine (toSettling_movesOn v s (by rw [hp]; decide)).trans ?_
    rw [← raiseFence_window (s.window v).spans (toSettling v s) v]
    exact settleCheck_movesOn v _ (by simp)

/-! ### The evaluation of all windows (02 R26) -/

theorem foldl_evalWindow_movesOn (l : List (Fin 64)) (s : State) (v : Fin 64) :
    (s.window v).MovesOn ((l.foldl (fun t w => evalWindow w t) s).window v) := by
  induction l generalizing s with
  | nil => exact .refl _
  | cons w l ih => exact (evalWindow_movesOn w v s).trans (ih _)

theorem foldl_evalWindow_window_other (l : List (Fin 64)) (s : State) (v : Fin 64) (hv : v ∉ l) :
    (l.foldl (fun t w => evalWindow w t) s).window v = s.window v := by
  induction l generalizing s with
  | nil => rfl
  | cons w l ih =>
    have hne : v ≠ w := fun h => hv (by simp [h])
    exact (ih _ fun h => hv (by simp [h])).trans (evalWindow_window_other w v s hne)

theorem evalWindows_rests (s : State) (h : s.evaluates = false) : evalWindows s = s := by simp [evalWindows, h]

theorem evalWindows_evaluates (s : State) (h : s.evaluates = true) :
    evalWindows s = s.windowIndices.foldl (fun t w => evalWindow w t) s := by simp [evalWindows, h]

theorem evalWindows_movesOn (s : State) (v : Fin 64) : (s.window v).MovesOn ((evalWindows s).window v) := by
  cases h : s.evaluates with
  | false => rw [evalWindows_rests s h]; exact .refl _
  | true => rw [evalWindows_evaluates s h]; exact foldl_evalWindow_movesOn _ s v

/-- A window that the last load did not count stands. -/
theorem evalWindows_window_uncounted (s : State) (v : Fin 64) (hv : s.params.windowCount ≤ v.val) :
    (evalWindows s).window v = s.window v := by
  cases h : s.evaluates with
  | false => rw [evalWindows_rests s h]
  | true =>
    rw [evalWindows_evaluates s h]
    exact foldl_evalWindow_window_other _ s v (by simpa [State.windowIndices] using hv)

/-! ### The window evaluated, by its phase and times (02 R27 R28) -/

/-- A window closed now: SETTLING with its expiry, or QUEUED where that is already reached. -/
theorem settleCheck_window_closed (w : Fin 64) (s u : State) (hclock : u.clock = s.clock)
    (hu : u.window w = (toSettling w s).window w) :
    (settleCheck w u).window w = { s.window w with
      phase := if timePlus s.clock.netTime (s.window w).settle ≤ s.clock.netTime then .queued else .settling
      expiry := timePlus s.clock.netTime (s.window w).settle } := by
  rw [toSettling_window_same] at hu
  rw [settleCheck_window_settling w u (by rw [hu]), hu, hclock]

/-- A raise marks no phase word, and the change before it marks the window's. -/
theorem mem_raiseFence_changeWindow_phaseDue (w : Fin 64) (f : Window → Window) (spans : List Nat) (s : State) :
    w ∈ (raiseFence spans (changeWindow w f s)).sched.phaseDue := by
  simp [mem_dueWith]

theorem raiseFence_changeWindow_fenceCount (w : Fin 64) (f : Window → Window) (spans : List Nat) (hn : spans.Nodup) (s : State)
    (x : Nat) : (raiseFence spans (changeWindow w f s)).fenceCount x = s.fenceCount x + (if x ∈ spans then 1 else 0) := by
  rw [raiseFence_fenceCount spans hn, changeWindow_fenceCount]

/-- A window that jumps past its close time waits in SETTLING until its expiry. -/
theorem evalWindow_pending_jumps (w : Fin 64) (s : State) (hp : (s.window w).phase = .pending)
    (hc : (s.window w).closeTime ≤ s.clock.netTime) (hd : s.clock.netTime < timePlus s.clock.netTime (s.window w).settle) :
    evalWindow w s = raiseFence (s.window w).spans (toSettling w s) := by
  rw [evalWindow_pending_settles w s hp hc]
  refine settleCheck_waits w _ fun h => absurd h.2 ?_
  simpa using hd

/-- What a settle expiry leaves: the window QUEUED at the end of the Slot Waiting List, its fence lowered, its phase word due. -/
theorem settleCheck_expiry_effect (w : Fin 64) (s : State) (hp : (s.window w).phase = .settling)
    (he : (s.window w).expiry ≤ s.clock.netTime) :
    let t := settleCheck w s
    t = { s with sched := t.sched } ∧ t.window w = { s.window w with phase := .queued } ∧ (∀ v, v ≠ w → t.window v = s.window v) ∧
    t.sched.slotWait = s.sched.slotWait ++ [w] ∧ t.sched.refresh = s.sched.refresh ∧ w ∈ t.sched.phaseDue ∧
    (∀ v, v ≠ w → (v ∈ t.sched.phaseDue ↔ v ∈ s.sched.phaseDue)) ∧
    ((s.window w).spans.Nodup → ∀ x, t.fenceCount x = s.fenceCount x - (if x ∈ (s.window w).spans then 1 else 0)) := by
  intro t
  have hwindow : t.window w = _ := settleCheck_window_settling w s hp
  have ht : t = _ := settleCheck_expires w s hp he
  refine ⟨settleCheck_frame w s, by rw [hwindow, if_pos he], fun v hv => settleCheck_window_other w v s hv, ?_⟩
  rw [ht]
  refine ⟨rfl, rfl, (mem_dueWith w w _).2 (.inl rfl), fun v hv => by simp [mem_dueWith, hv], fun hn x => ?_⟩
  exact lowerFence_fenceCount _ hn s x

/-! ### The clock's events (02 R24 R25) -/

/-- The clock set and the windows evaluated: what both clock events leave. -/
theorem clockEvent_effect (c : Clock) (s : State) :
    let u := evalWindows { s with clock := c }
    (settle u).hostSide = { s.hostSide with clock := c } ∧ (∀ a, readByte (settle u).memory a = readByte s.memory a) ∧
    (s.evaluates = false → u = { s with clock := c }) := by
  intro u
  obtain ⟨hhost, hbytes⟩ := settle_keeps (s := { s with clock := c }) (evalWindows_clock_hostSide c s)
  exact ⟨hhost, hbytes, fun h => evalWindows_rests { s with clock := c } h⟩

end Sys2Proof.Machine

open Sys2Proof Sys2Proof.Machine

/-- Settles O15: each evaluation is one of the cases of `evalWindow_cases`, and each case moves its window on. -/
theorem evaluationMovesAWindowByTime : Obligations.EvaluationMovesAWindowByTime := by
  refine ⟨?_, ?_, ?_, ?_, ?_⟩
  · intro w s x now y settled due
    refine ⟨fun hp hc => ?_, fun hp hc ho => ?_, evalWindow_pending_waits w s, fun hp hc => ?_, evalWindow_opened_waits w s,
      fun hp => ?_, evalWindow_rests w s, fun v hv => evalWindow_window_other w v s hv⟩
    · show (evalWindow w s).window w = _
      rw [evalWindow_pending_settles w s hp hc]
      exact settleCheck_window_closed w s _ (by simp) (by simp)
    · show (evalWindow w s).window w = _
      rw [evalWindow_pending_opens w s hp hc ho, raiseFence_window, changeWindow_window, if_pos rfl]
    · show (evalWindow w s).window w = _
      rw [evalWindow_opened_settles w s hp hc]
      exact settleCheck_window_closed w s _ (by simp) rfl
    · show (evalWindow w s).window w = _
      rw [evalWindow_settling w s hp]
      exact settleCheck_window_settling w s hp
  · intro s w
    have h := evalWindows_movesOn s w
    exact ⟨h.phase, h.openTime, h.closeTime, h.spans, evalWindows_window_uncounted s w⟩
  · intro w f s t
    refine ⟨changeWindow_frame w f s, by simp [t], fun v hv => by simp [t, hv], by simp [t, mem_dueWith], fun v hv => ?_⟩
    simp [t, mem_dueWith, hv]
  · intro w s x now settling t
    refine ⟨evalWindow_opened_settles w s, evalWindow_settling w s, fun hp hc ho hn => ?_, fun hp hc hd hn => ?_,
      settleCheck_waits w s, settleCheck_expiry_effect w s⟩
    · rw [evalWindow_pending_opens w s hp hc ho]
      exact ⟨mem_raiseFence_changeWindow_phaseDue w _ _ s, raiseFence_changeWindow_fenceCount w _ _ hn s⟩
    · rw [evalWindow_pending_jumps w s hp hc hd, toSettling]
      exact ⟨mem_raiseFence_changeWindow_phaseDue w _ _ s, raiseFence_changeWindow_fenceCount w _ _ hn s⟩
  · exact fun s => ⟨evalWindows_rests s, evalWindows_evaluates s⟩

/-- Settles O16: the settle expiry is one `settleCheck`, and a raise withdraws the entries it hits. -/
theorem settleExpiryLowersAndOpeningRaises : Obligations.SettleExpiryLowersAndOpeningRaises := by
  refine ⟨?_, ?_, ?_⟩
  · intro w s hev hp he hn
    obtain ⟨hframe, hwindow, hothers, hwait, -, hdue, -, hfence⟩ := settleCheck_expiry_effect w s hp he
    have hexec : exec (.settleExpiry w) s = .next (settle (settleCheck w s)) := by simp [exec, execSettleExpiry, admitted, hev]
    exact ⟨_, hexec, hframe, hwindow, hothers, hwait, hdue, hfence hn, settle_keeps (congrArg (·.host) (settleCheck_surround w s))⟩
  · intro spans s hn
    have hclosed : ∀ i, (s.entry i).state.isOpen = false → ¬ s.hitBy spans i := fun i h hit => by simp [hit.1] at h
    refine ⟨raiseFence_fenceCount spans hn s, by simp, fun i x hx h0 hm => ?_,
      fun i h => raiseFence_entry_stands spans s i (hclosed i h), by simp, raiseFence_entry_hit spans s,
      raiseFence_entry_stands spans s, raiseFence_withdraws spans s⟩
    by_cases hit : s.hitBy spans i
    · simp [raiseFence_entry_hit spans s i hit] at hm
    · rw [raiseFence_entry_stands spans s i hit] at hm ⊢
      exact Bool.eq_false_iff.2 fun hopen => hit ⟨hopen, x, hm, hx, h0⟩
  · intro w s hp x now
    exact ⟨evalWindow_pending_opens w s hp, evalWindow_pending_settles w s hp⟩

/-- Settles O14: both clock events set the clock and evaluate the windows. -/
theorem timeEventsSetTheClock : Obligations.TimeEventsSetTheClock := by
  intro value s hheld
  refine ⟨fun hsel => ?_, ?_⟩
  · have hexec : exec (.netTimeWrite value) s =
        .next (settle (evalWindows { s with clock := { netTime := value, subCount := 0 } })) := by
      simp [exec, execNetTimeWrite, whenSelected, hheld, hsel]
    exact ⟨_, hexec, rfl, clockEvent_effect _ s⟩
  · have hexec : exec .secondEvent s = .next (settle (secondTick s)) := by
      simp [exec, execSecondEvent, whenActive, hheld]
    exact ⟨_, hexec, rfl, clockEvent_effect _ s⟩

end

section
/-! PROOF. The refresh of a window by the phase it holds (02 R32 to R36) and the window sweep that goes on after it (02 R32, 09 R161). -/

namespace Sys2Proof.Machine

/-! ### What the Window Scheduler's work reaches -/

/-- From `s` to `t` only the Window Scheduler works: itself, and what a raise of its fence withdraws, have changed. -/
def State.windowWork (s t : State) : Prop :=
  t = { s with sched := t.sched, probes := t.probes, ctrl := t.ctrl, custody := t.custody, master := t.master }

theorem State.windowWork.refl (s : State) : s.windowWork s := rfl

theorem State.windowWork.trans {s t u : State} (h : s.windowWork t) (k : t.windowWork u) : s.windowWork u := by
  unfold State.windowWork at h k ⊢
  exact k.trans (by rw [h])

/-- A step that changes the Window Scheduler alone. -/
theorem windowWork_of_sched {s t : State} (h : t = { s with sched := t.sched }) : s.windowWork t := by
  unfold State.windowWork
  rw [h]

theorem changeWindow_work (w : Fin 64) (f : Window → Window) (s : State) : s.windowWork (changeWindow w f s) := by
  rw [changeWindow_eq]
  exact windowWork_of_sched rfl

theorem raiseFence_work (spans : List Nat) (s : State) : s.windowWork (raiseFence spans s) := by
  have h := raiseFence_frame spans s
  have hs := raiseFence_sched spans s
  unfold State.windowWork
  rw [hs]
  exact h

theorem settleCheck_work (w : Fin 64) (s : State) : s.windowWork (settleCheck w s) := windowWork_of_sched (settleCheck_frame w s)

theorem evalWindow_work (w : Fin 64) (s : State) : s.windowWork (evalWindow w s) := by
  have settling : s.windowWork (toSettling w s) := changeWindow_work w _ s
  rcases evalWindow_cases w s with h | ⟨h, -⟩ | ⟨h, -⟩ | ⟨-, h | h⟩ <;> rw [h]
  · exact .refl s
  · exact settleCheck_work w s
  · exact settling.trans (settleCheck_work w _)
  · exact (changeWindow_work w _ s).trans (raiseFence_work _ _)
  · exact (settling.trans (raiseFence_work _ _)).trans (settleCheck_work w _)

/-! ### One window rewritten (02 R33 R34 R36) -/

/-- From `s` to `t` window `w` and whether its phase word is due have changed, and nothing else. -/
structure OnlyWindow (w : Fin 64) (s t : State) : Prop where
  frame : t = { s with sched := { s.sched with windows := t.sched.windows, phaseDue := t.sched.phaseDue } }
  others : ∀ v, v ≠ w → t.window v = s.window v
  due : ∀ v, v ≠ w → (v ∈ t.sched.phaseDue ↔ v ∈ s.sched.phaseDue)

theorem OnlyWindow.refl (w : Fin 64) (s : State) : OnlyWindow w s s := ⟨rfl, fun _ _ => rfl, fun _ _ => .rfl⟩

theorem changeWindow_only (w : Fin 64) (f : Window → Window) (s : State) : OnlyWindow w s (changeWindow w f s) where
  frame := changeWindow_frame w f s
  others v hv := by simp [hv]
  due v hv := by simp [mem_dueWith, hv]

theorem modWindow_only (w : Fin 64) (f : Window → Window) (s : State) : OnlyWindow w s (modWindow w f s) where
  frame := rfl
  others v hv := by simp [hv]
  due _ _ := .rfl

theorem OnlyWindow.work {w : Fin 64} {s t : State} (h : OnlyWindow w s t) : s.windowWork t := by
  have h := h.frame
  refine windowWork_of_sched (h.trans ?_)
  rw [h]

/-- A window changed holds its new value, and its phase word is due. -/
theorem changeWindow_holds (w : Fin 64) (f : Window → Window) (s : State) :
    (changeWindow w f s).window w = f (s.window w) ∧ w ∈ (changeWindow w f s).sched.phaseDue := by
  simp [mem_dueWith]

theorem timesOk_iff (x : Window) : timesOk x = true ↔ x.openTime < x.closeTime := by simp [timesOk]

theorem timesOk_eq_false_iff (x : Window) : timesOk x = false ↔ x.closeTime ≤ x.openTime := by simp [timesOk]

section Rewritten

variable (w : Fin 64) (got : List Word) (s : State)

/-- The copy that a refresh read in full makes of a window entry (02 R31). -/
def State.copied (s : State) (w : Fin 64) (got : List Word) : Window := copyWindow s.params.defaultSettle got (s.window w)

theorem refreshIdle_arms (ha : armOfWord (got.getD 0 0) = .armed) (ht : (s.copied w got).openTime < (s.copied w got).closeTime) :
    refreshIdle w got s = changeWindow w (fun _ => { s.copied w got with phase := .pending, campaign := 0, reason := .none }) s := by
  rw [refreshIdle, if_pos ha]
  exact if_pos ((timesOk_iff _).2 ht)

theorem refreshIdle_rejects (ha : armOfWord (got.getD 0 0) = .armed) (ht : (s.copied w got).closeTime ≤ (s.copied w got).openTime) :
    refreshIdle w got s = changeWindow w (fun _ => { s.copied w got with phase := .finished, campaign := 0, reason := .invalid }) s := by
  rw [refreshIdle, if_pos ha]
  exact if_neg (Bool.eq_false_iff.1 ((timesOk_eq_false_iff _).2 ht))

theorem refreshIdle_rests (ha : armOfWord (got.getD 0 0) ≠ .armed) : refreshIdle w got s = s := if_neg ha

theorem refreshIdle_only : OnlyWindow w s (refreshIdle w got s) := by
  by_cases ha : armOfWord (got.getD 0 0) = .armed
  case neg => rw [refreshIdle_rests w got s ha]; exact .refl w s
  by_cases ht : (s.copied w got).openTime < (s.copied w got).closeTime
  · rw [refreshIdle_arms w got s ha ht]
    exact changeWindow_only w _ s
  · rw [refreshIdle_rejects w got s ha (BitVec.not_lt.1 ht)]
    exact changeWindow_only w _ s

theorem refreshPending_cancels (ha : armOfWord (got.getD 0 0) = .cancel) : refreshPending w got s =
    changeWindow w (fun x => { x with arm := .cancel, phase := .finished, reason := .cancelled }) s := by
  simp only [refreshPending, ha]

theorem refreshPending_disarms (ha : armOfWord (got.getD 0 0) = .disarmed) : refreshPending w got s =
    changeWindow w (fun x => { x with arm := .disarmed, phase := .idle }) s := by
  simp only [refreshPending, ha]

theorem refreshPending_moves (ha : armOfWord (got.getD 0 0) = .armed)
    (ht : (s.copied w got).openTime < (s.copied w got).closeTime) :
    refreshPending w got s = modWindow w (fun _ => s.copied w got) s := by
  simp only [refreshPending, ha]
  exact if_pos ((timesOk_iff _).2 ht)

theorem refreshPending_rejects (ha : armOfWord (got.getD 0 0) = .armed)
    (ht : (s.copied w got).closeTime ≤ (s.copied w got).openTime) :
    refreshPending w got s = changeWindow w (fun _ => { s.copied w got with phase := .finished, reason := .invalid }) s := by
  simp only [refreshPending, ha]
  exact if_neg (Bool.eq_false_iff.1 ((timesOk_eq_false_iff _).2 ht))

theorem refreshPending_only : OnlyWindow w s (refreshPending w got s) := by
  cases ha : armOfWord (got.getD 0 0) with
  | cancel => rw [refreshPending_cancels w got s ha]; exact changeWindow_only w _ s
  | disarmed => rw [refreshPending_disarms w got s ha]; exact changeWindow_only w _ s
  | armed =>
    by_cases ht : (s.copied w got).openTime < (s.copied w got).closeTime
    · rw [refreshPending_moves w got s ha ht]
      exact modWindow_only w _ s
    · rw [refreshPending_rejects w got s ha (BitVec.not_lt.1 ht)]
      exact changeWindow_only w _ s

theorem refreshFinished_disarms : refreshFinished w .disarmed s =
    changeWindow w (fun x => { x with arm := .disarmed, phase := .idle, campaign := 0, reason := .none }) s := rfl

theorem refreshFinished_rests (arm : Arm) (h : arm ≠ .disarmed) : refreshFinished w arm s = s := by
  cases arm with
  | disarmed => exact absurd rfl h
  | armed => rfl
  | cancel => rfl

end Rewritten

/-! ### The refresh of an OPEN window (02 R35) -/

theorem changeWindow_congr (w : Fin 64) (f g : Window → Window) (s : State) (h : f (s.window w) = g (s.window w)) :
    changeWindow w f s = changeWindow w g s := by
  simp only [changeWindow_eq, h]

/-- A window rewritten and then closed is one change, which counts the settle expiry from now. -/
theorem toSettling_modWindow (w : Fin 64) (f : Window → Window) (s : State) : toSettling w (modWindow w f s) =
    changeWindow w
      (fun _ => { f (s.window w) with phase := .settling, expiry := timePlus s.clock.netTime (f (s.window w)).settle }) s := by
  rw [toSettling, changeWindow_modWindow]
  exact changeWindow_congr w _ _ s rfl

/-- A change into SETTLING and its settle test: the window, and its phase word due. -/
theorem settleCheck_changeWindow (w : Fin 64) (x : Window) (s : State) (hx : x.phase = .settling) :
    (settleCheck w (changeWindow w (fun _ => x) s)).window w =
      { x with phase := if x.expiry ≤ s.clock.netTime then .queued else .settling } ∧
    w ∈ (settleCheck w (changeWindow w (fun _ => x) s)).sched.phaseDue := by
  obtain ⟨hwindow, hdue⟩ := changeWindow_holds w (fun _ => x) s
  refine ⟨?_, mem_settleCheck_phaseDue w w _ hdue⟩
  rw [settleCheck_window_settling w _ (by rw [hwindow, hx]), hwindow, changeWindow_clock]

/-- A settle test lowers a fence only where it leaves the window QUEUED (02 R42). -/
theorem settleCheck_fence (w : Fin 64) (s : State) (h : ((settleCheck w s).window w).phase ≠ .queued) :
    (settleCheck w s).sched.fence = s.sched.fence := by
  by_cases hc : (s.window w).phase = .settling ∧ (s.window w).expiry ≤ s.clock.netTime
  · rw [settleCheck_window_settling w s hc.1, if_pos hc.2] at h
    exact absurd rfl h
  · rw [settleCheck_waits w s hc]

theorem applyRefresh_opened (r : Refresh) (s : State) (hp : (s.window r.window).phase = .opened) (hk : r.kind ≠ .armOnly) :
    applyRefresh r s = evalWindow r.window
      (refreshOpen r.window (armOfWord (r.got.getD 0 0)) (r.got.getD (if r.kind = .full then 2 else 1) 0) s) := by
  unfold applyRefresh
  cases hr : r.kind with
  | full => simp [hp]
  | armAndClose => simp [hp]
  | armOnly => exact absurd hr hk

theorem applyRefresh_passed (r : Refresh) (s : State)
    (hp : (s.window r.window).phase = .settling ∨ (s.window r.window).phase = .queued ∨ (s.window r.window).phase = .verifying) :
    applyRefresh r s = evalWindow r.window s := by
  rcases hp with hp | hp | hp <;> simp [applyRefresh, hp]

theorem applyRefresh_finished (r : Refresh) (s : State) (hp : (s.window r.window).phase = .finished) :
    applyRefresh r s = evalWindow r.window (refreshFinished r.window (armOfWord (r.got.getD 0 0)) s) := by
  simp [applyRefresh, hp]

section Opened

variable (w : Fin 64) (close : Word) (s : State)

/-- The close time read is still to come: the window stays OPEN. -/
theorem refreshOpen_stays (hp : (s.window w).phase = .opened) (hc : s.clock.netTime < close) :
    evalWindow w (refreshOpen w .armed close s) = modWindow w (fun x => { x with arm := .armed, closeTime := close }) s :=
  evalWindow_opened_waits w (modWindow w (fun x => { x with arm := .armed, closeTime := close }) s)
    (by simpa using hp) (by simpa using hc)

/-- The close time read is reached: the window closes. -/
theorem refreshOpen_closes (hp : (s.window w).phase = .opened) (hc : close ≤ s.clock.netTime) :
    evalWindow w (refreshOpen w .armed close s) = settleCheck w (changeWindow w (fun _ => { s.window w with
      arm := .armed, closeTime := close, phase := .settling, expiry := timePlus s.clock.netTime (s.window w).settle }) s) := by
  have h := evalWindow_opened_settles w (modWindow w (fun x => { x with arm := .armed, closeTime := close }) s)
    (by simpa using hp) (by simpa using hc)
  rw [toSettling_modWindow] at h
  exact h

/-- CANCEL closes the window whatever its close time. -/
theorem refreshOpen_cancels :
    evalWindow w (refreshOpen w .cancel close s) = settleCheck w (changeWindow w (fun _ => { s.window w with
      arm := .cancel, phase := .settling, expiry := timePlus s.clock.netTime (s.window w).settle }) s) := by
  have h : refreshOpen w .cancel close s = _ := toSettling_modWindow w (fun x => { x with arm := .cancel }) s
  rw [h]
  exact evalWindow_settling w _ (by simp)

/-- An OPEN window's refresh rewrites it, or closes it with its settle test, or leaves it. -/
theorem refreshOpen_cases (arm : Arm) (hp : (s.window w).phase = .opened) :
    evalWindow w (refreshOpen w arm close s) = s ∨ (∃ f, evalWindow w (refreshOpen w arm close s) = modWindow w f s) ∨
    ∃ f, evalWindow w (refreshOpen w arm close s) = settleCheck w (changeWindow w f s) := by
  cases arm with
  | armed =>
    by_cases hc : close ≤ s.clock.netTime
    · exact .inr (.inr ⟨_, refreshOpen_closes w close s hp hc⟩)
    · exact .inr (.inl ⟨_, refreshOpen_stays w close s hp (BitVec.not_le.1 hc)⟩)
  | cancel => exact .inr (.inr ⟨_, refreshOpen_cancels w close s⟩)
  | disarmed =>
    by_cases hc : (s.window w).closeTime ≤ s.clock.netTime
    · exact .inr (.inr ⟨_, evalWindow_opened_settles w s hp hc⟩)
    · exact .inl (evalWindow_opened_waits w s hp (BitVec.not_le.1 hc))

theorem refreshOpen_others (arm : Arm) (hp : (s.window w).phase = .opened) (v : Fin 64) (hv : v ≠ w) :
    (evalWindow w (refreshOpen w arm close s)).window v = s.window v := by
  rcases refreshOpen_cases w close s arm hp with h | ⟨f, h⟩ | ⟨f, h⟩ <;> rw [h]
  · simp [hv]
  · rw [settleCheck_window_other w v _ hv]
    simp [hv]

theorem refreshOpen_fence (arm : Arm) (hp : (s.window w).phase = .opened)
    (hq : ((evalWindow w (refreshOpen w arm close s)).window w).phase ≠ .queued) :
    (evalWindow w (refreshOpen w arm close s)).sched.fence = s.sched.fence := by
  rcases refreshOpen_cases w close s arm hp with h | ⟨f, h⟩ | ⟨f, h⟩ <;> rw [h] at hq ⊢
  · rfl
  · rw [settleCheck_fence w _ hq, changeWindow_fence]

end Opened

/-! ### Any refresh -/

theorem refreshOpen_work (w : Fin 64) (arm : Arm) (close : Word) (s : State) : s.windowWork (refreshOpen w arm close s) := by
  cases arm with
  | armed => exact (modWindow_only w (fun x => { x with arm := .armed, closeTime := close }) s).work
  | cancel => exact (modWindow_only w (fun x => { x with arm := .cancel }) s).work.trans (changeWindow_work w _ _)
  | disarmed => exact .refl s

theorem refreshFinished_work (w : Fin 64) (arm : Arm) (s : State) : s.windowWork (refreshFinished w arm s) := by
  cases arm with
  | disarmed => exact changeWindow_work w _ s
  | armed => exact .refl s
  | cancel => exact .refl s

theorem applyRefresh_work (r : Refresh) (s : State) : s.windowWork (applyRefresh r s) := by
  refine State.windowWork.trans ?_ (evalWindow_work r.window _)
  cases (s.window r.window).phase with
  | idle => dsimp only; split; exacts [(refreshIdle_only r.window r.got s).work, .refl s]
  | pending => dsimp only; split; exacts [(refreshPending_only r.window r.got s).work, .refl s]
  | opened => dsimp only; split; exacts [.refl s, refreshOpen_work _ _ _ s]
  | settling => exact .refl s
  | queued => exact .refl s
  | verifying => exact .refl s
  | finished => exact refreshFinished_work _ _ s

/-! ### The window sweep goes on (02 R32, 09 R161) -/

/-- The last word of a refresh returns: its values are applied, and the sweep goes on with the window after it. -/
theorem windowRefreshDone_eq (data : Word) (s : State) (r : Refresh) (hs : s.readsWith .refresh) (hr : s.sched.refresh = some r)
    (hl : r.got.length + 1 = (refreshOffsets r.kind).length) :
    exec (.windowRefreshDone data) s = .next (settle (goOnWindows (modReader (fun x => { x with window := r.window.val + 1 })
      (applyRefresh { r with got := r.got ++ [data] } { s.portFreed with sched := { s.sched with refresh := none } })))) := by
  obtain ⟨q, addr, hport⟩ := hs
  have hlast : endsRefresh s = true := by simp [endsRefresh, State.portTag, hport, hr, hl]
  have hread : (refreshOffsets r.kind)[(r.got ++ [data]).length]? = none := by simp [hl]
  show Host.Outcome.next (endOf (endsRefresh s) data s) = _
  rw [endOf_response _ data s q _ hport hlast, endAccess_read s _ rfl]
  simp only [deliver, refreshRead, portFreed_sched, hr, hread]

/-- The sweep that goes on changes the refresh in flight, the reader and the queues of accesses alone. -/
theorem goOnWindows_frame (s : State) :
    let t := goOnWindows s
    t = { s with sched := { s.sched with refresh := t.sched.refresh }, master := t.master, reader := t.reader } := by
  intro t
  cases h : nextRefresh s with
  | none => rw [show t = _ from goOnWindows_scan s h]; rfl
  | some x => rw [show t = _ from goOnWindows_refresh s x.1 x.2 h]; rfl

theorem goOnWindows_windows (s : State) : (goOnWindows s).sched.windows = s.sched.windows :=
  congrArg (·.sched.windows) (goOnWindows_frame s)

theorem goOnWindows_fence (s : State) : (goOnWindows s).sched.fence = s.sched.fence :=
  congrArg (·.sched.fence) (goOnWindows_frame s)

theorem goOnWindows_probes (s : State) : (goOnWindows s).probes = s.probes := congrArg (·.probes) (goOnWindows_frame s)

/-- After the Window Scheduler's work from a state that differs from `s` in its own part, the sweep that goes on adds the reader. -/
theorem goOnWindows_after_work {s t : State} {sched : Scheduler} {f : Reader → Reader}
    (h : State.windowWork { s with sched := sched } t) :
    let u := goOnWindows (modReader f t)
    u = { s with
      sched := u.sched, probes := u.probes, ctrl := u.ctrl, custody := u.custody, master := u.master, reader := u.reader } := by
  intro u
  have hframe : u = _ := goOnWindows_frame (modReader f t)
  rw [hframe, h]
  rfl

end Sys2Proof.Machine

open Sys2Proof Sys2Proof.Machine

/-- Settles O17: the copy armed or rejected by its times, or nothing. -/
theorem idleRefreshArmsOrRejects : Obligations.IdleRefreshArmsOrRejects := by
  intro w got s hp x t
  have h := refreshIdle_only w got s
  refine ⟨by simp [applyRefresh, hp, t], h.frame, h.others, h.due, fun ha ht => ?_, fun ha ht => ?_, refreshIdle_rests w got s⟩
  · rw [show t = _ from refreshIdle_arms w got s ha ht]
    exact changeWindow_holds w _ s
  · rw [show t = _ from refreshIdle_rejects w got s ha ht]
    exact changeWindow_holds w _ s

/-- Settles O18: the arm word read decides, and an ARMED copy is judged by its times. -/
theorem pendingRefreshCancelsDisarmsOrMoves : Obligations.PendingRefreshCancelsDisarmsOrMoves := by
  intro w got s hp x t
  have h := refreshPending_only w got s
  refine ⟨by simp [applyRefresh, hp, t], h.frame, h.others, h.due, fun ha => ?_, fun ha => ?_, fun ha ht => ?_, fun ha ht => ?_⟩
  · rw [show t = _ from refreshPending_cancels w got s ha]
    exact changeWindow_holds w _ s
  · rw [show t = _ from refreshPending_disarms w got s ha]
    exact changeWindow_holds w _ s
  · rw [show t = _ from refreshPending_rejects w got s ha ht]
    exact changeWindow_holds w _ s
  · rw [show t = _ from refreshPending_moves w got s ha ht]
    exact ⟨(modWindow_window w w _ s).trans (if_pos rfl), hp, rfl⟩

/-- Settles O19: an OPEN window is rewritten, closed or left; the phases after it are evaluated alone; FINISHED may become IDLE. -/
theorem openAndFinishedRefreshes : Obligations.OpenAndFinishedRefreshes := by
  intro r s w x arm now close due closed t
  refine ⟨fun hp hk => ?_, fun hp => ?_, fun hp => ⟨fun ha => ?_, fun ha => ?_⟩⟩
  · have ht : t = evalWindow w (refreshOpen w arm close s) := applyRefresh_opened r s hp hk
    rw [ht]
    refine ⟨refreshOpen_others w close s arm hp, refreshOpen_fence w close s arm hp, fun ha hc => ?_, fun ha hc => ?_,
      fun ha => ?_, fun ha => by rw [ha]; rfl⟩
    · rw [ha, refreshOpen_stays w close s hp hc]
      exact ⟨rfl, (modWindow_window w w _ s).trans (if_pos rfl)⟩
    · rw [ha, refreshOpen_closes w close s hp hc]
      obtain ⟨hwindow, hdue⟩ := settleCheck_changeWindow w
        { x with arm := .armed, closeTime := close, phase := .settling, expiry := due } s rfl
      exact ⟨hwindow, hdue, rfl⟩
    · rw [ha, refreshOpen_cancels w close s]
      obtain ⟨hwindow, hdue⟩ := settleCheck_changeWindow w
        { x with arm := .cancel, phase := .settling, expiry := due } s rfl
      exact ⟨hwindow, hdue, rfl⟩
  · exact applyRefresh_passed r s hp
  · let idle := changeWindow w (fun x => { x with arm := .disarmed, phase := .idle, campaign := 0, reason := .none }) s
    have h : OnlyWindow w s idle := changeWindow_only w _ s
    obtain ⟨hwindow, hdue⟩ : idle.window w = _ ∧ w ∈ idle.sched.phaseDue := changeWindow_holds w _ s
    have ht : t = idle := by
      have happly : t = evalWindow w (refreshFinished w arm s) := applyRefresh_finished r s hp
      rw [happly, ha, refreshFinished_disarms]
      exact evalWindow_rests w idle (by simp [hwindow]) (by simp [hwindow]) (by simp [hwindow])
    rw [ht]
    exact ⟨h.frame, hwindow, hdue, h.others⟩
  · have happly : t = evalWindow w (refreshFinished w arm s) := applyRefresh_finished r s hp
    rw [happly, refreshFinished_rests w s arm ha]
    exact evalWindow_rests w s (by simp [x, hp]) (by simp [x, hp]) (by simp [x, hp])

/-- Settles O20: the refresh applied, and then the next window's first read or the request scan's. -/
theorem refreshEndsAndTheSweepGoesOn : Obligations.RefreshEndsAndTheSweepGoesOn := by
  intro data s r hs hr hl after
  let next := modReader (fun x => { x with window := r.window.val + 1 }) after
  have hexec : exec (.windowRefreshDone data) s = .next (settle (goOnWindows next)) := windowRefreshDone_eq data s r hs hr hl
  have hafter : State.windowWork { s.portFreed with sched := { s.sched with refresh := none } } after := applyRefresh_work _ _
  have hframe : goOnWindows next = _ := goOnWindows_after_work hafter
  have hparams : after.params = s.params := congrArg (·.params) hafter
  have hreader : after.reader = s.reader := congrArg (·.reader) hafter
  clear_value after
  have hkeep := settle_keeps (s := s) (congrArg (·.hostSide) hframe)
  refine ⟨_, hexec, hframe, goOnWindows_windows next, goOnWindows_fence next, goOnWindows_probes next, hkeep.1, hkeep.2,
    fun v k hv => ?_, fun hv => ?_⟩
  · rw [goOnWindows_refresh next v k hv]
    exact ⟨rfl, rfl⟩
  · rw [goOnWindows_scan next hv, ← hparams, ← hreader]
    exact ⟨rfl, rfl, rfl, rfl, handRead_queue_of _ _ _ _ _⟩

end

section
/-! PROOF. The load's window step (02 R45 R31): the table of a window entry, and what taking the entry does. -/

namespace Sys2Proof.Machine

/-! ### The table (02 R45) -/

section Table

variable (dflt : Nat) (now : Word) (ws : List Word)

theorem loadedWindow_unarmed (ha : (copyWindow dflt ws {}).arm ≠ .armed) :
    loadedWindow dflt now ws = { copyWindow dflt ws {} with phase := .idle } := if_pos ha

theorem loadedWindow_invalid (ha : (copyWindow dflt ws {}).arm = .armed)
    (ht : (copyWindow dflt ws {}).closeTime ≤ (copyWindow dflt ws {}).openTime) :
    loadedWindow dflt now ws = { copyWindow dflt ws {} with phase := .finished, reason := .invalid } := by
  simp only [loadedWindow, ha, ht, ne_eq, not_true_eq_false, if_false, if_true]

/-- The rows of an ARMED window with its close time after its open time. -/
theorem loadedWindow_timed (ha : (copyWindow dflt ws {}).arm = .armed)
    (ht : (copyWindow dflt ws {}).openTime < (copyWindow dflt ws {}).closeTime) : loadedWindow dflt now ws =
    if now < (copyWindow dflt ws {}).openTime then { copyWindow dflt ws {} with phase := .pending }
    else if now < (copyWindow dflt ws {}).closeTime then { copyWindow dflt ws {} with phase := .opened }
    else if phaseOfCode (bits (ws.getD 20 0) 2 0) = .finished then { copyWindow dflt ws {} with
      phase := .finished, reason := reasonOfCode (bits (ws.getD 20 0) 6 4), campaign := bits (ws.getD 20 0) 15 8 }
    else if phaseOfCode (bits (ws.getD 20 0) 2 0) = .queued ∨ phaseOfCode (bits (ws.getD 20 0) 2 0) = .verifying then
      { copyWindow dflt ws {} with phase := .queued }
    else { copyWindow dflt ws {} with phase := .settling, expiry := timePlus now (copyWindow dflt ws {}).settle } := by
  simp only [loadedWindow, ha, BitVec.not_le.2 ht, ne_eq, not_true_eq_false, if_false]

/-- The rows of a window whose close time is reached, by the previous phase word. -/
theorem loadedWindow_past (ha : (copyWindow dflt ws {}).arm = .armed)
    (ht : (copyWindow dflt ws {}).openTime < (copyWindow dflt ws {}).closeTime) (hc : (copyWindow dflt ws {}).closeTime ≤ now) :
    loadedWindow dflt now ws =
    if phaseOfCode (bits (ws.getD 20 0) 2 0) = .finished then { copyWindow dflt ws {} with
      phase := .finished, reason := reasonOfCode (bits (ws.getD 20 0) 6 4), campaign := bits (ws.getD 20 0) 15 8 }
    else if phaseOfCode (bits (ws.getD 20 0) 2 0) = .queued ∨ phaseOfCode (bits (ws.getD 20 0) 2 0) = .verifying then
      { copyWindow dflt ws {} with phase := .queued }
    else { copyWindow dflt ws {} with phase := .settling, expiry := timePlus now (copyWindow dflt ws {}).settle } := by
  have ho : ¬ now < (copyWindow dflt ws {}).openTime := by bv_omega
  rw [loadedWindow_timed dflt now ws ha ht, if_neg ho, if_neg (BitVec.not_lt.2 hc)]

end Table

/-! ### The spans of a copy (02 R31) -/

theorem distinctSpans_nodup (l acc : List Nat) (h : acc.Nodup) : (distinctSpans acc l).Nodup := by
  induction l generalizing acc with
  | nil => exact h
  | cons x l ih =>
    rw [distinctSpans]
    split
    · exact ih acc h
    · next hx =>
      refine ih _ (List.nodup_append.2 ⟨h, List.nodup_singleton x, ?_⟩)
      rintro a ha b hb rfl
      exact hx (.inr (by simpa [List.mem_singleton.1 hb] using ha))

theorem loadedWindow_spans (dflt : Nat) (now : Word) (ws : List Word) : (loadedWindow dflt now ws).spans = windowSpans ws := by
  simp only [loadedWindow]
  (repeat' split) <;> rfl

theorem loadedWindow_spans_nodup (dflt : Nat) (now : Word) (ws : List Word) : (loadedWindow dflt now ws).spans.Nodup := by
  rw [loadedWindow_spans]
  exact distinctSpans_nodup _ [] List.nodup_nil

/-! ### The entry taken -/

/-- The window as the load's window step leaves it in a state. -/
def State.loadedAs (s : State) (ws : List Word) : Window := loadedWindow s.params.defaultSettle s.clock.netTime ws

/-- The Window Scheduler after an entry is taken: the window, its phase word, its fence, its place in the Slot Waiting List. -/
theorem loadWindow_sched (w : Fin 64) (ws : List Word) (s : State) : (loadWindow w ws s).sched = { s.sched with
    windows := vput s.sched.windows w (s.loadedAs ws)
    fence := if (s.loadedAs ws).phase = .opened ∨ (s.loadedAs ws).phase = .settling
      then (s.loadedAs ws).spans.foldl raiseOne s.sched.fence else s.sched.fence
    slotWait := s.sched.slotWait ++ (if (s.loadedAs ws).phase = .queued then [w] else [])
    phaseDue := if loadedWordDue (s.loadedAs ws) (ws.getD 20 0) then dueWith w s.sched.phaseDue else s.sched.phaseDue } := by
  unfold loadWindow State.loadedAs
  dsimp only
  generalize loadedWindow s.params.defaultSettle s.clock.netTime ws = y
  generalize ws.getD 20 0 = pw
  have marked : (if loadedWordDue y pw = true then markPhase w (modWindow w (fun _ => y) s)
      else modWindow w (fun _ => y) s).sched = { s.sched with
        windows := vput s.sched.windows w y
        phaseDue := if loadedWordDue y pw then dueWith w s.sched.phaseDue else s.sched.phaseDue } := by
    split
    · rw [markPhase_eq]; rfl
    · rfl
  cases y.phase <;> simp [marked]

theorem loadWindow_work (w : Fin 64) (ws : List Word) (s : State) : s.windowWork (loadWindow w ws s) := by
  simp only [loadWindow]
  generalize loadedWindow s.params.defaultSettle s.clock.netTime ws = y
  have taken : s.windowWork (modWindow w (fun _ => y) s) := (modWindow_only w _ s).work
  have marked : s.windowWork (if loadedWordDue y (ws.getD 20 0) then markPhase w (modWindow w (fun _ => y) s)
      else modWindow w (fun _ => y) s) := by
    split
    · exact changeWindow_work w (fun _ => y) s
    · exact taken
  cases y.phase with
  | opened => exact marked.trans (raiseFence_work _ _)
  | settling => exact marked.trans (raiseFence_work _ _)
  | queued => exact marked.trans (windowWork_of_sched rfl)
  | idle => exact marked
  | pending => exact marked
  | verifying => exact marked
  | finished => exact marked

theorem loadWindow_window (w v : Fin 64) (ws : List Word) (s : State) :
    (loadWindow w ws s).window v = if v = w then s.loadedAs ws else s.window v := by
  simp only [State.window, loadWindow_sched]
  exact vput_get _ _ _ _

theorem loadWindow_fenceCount (w : Fin 64) (ws : List Word) (s : State) (x : Nat) :
    (loadWindow w ws s).fenceCount x = s.fenceCount x +
      (if ((s.loadedAs ws).phase = .opened ∨ (s.loadedAs ws).phase = .settling) ∧ x ∈ (s.loadedAs ws).spans then 1 else 0) := by
  simp only [State.fenceCount, loadWindow_sched]
  by_cases hp : (s.loadedAs ws).phase = .opened ∨ (s.loadedAs ws).phase = .settling
  · rw [if_pos hp, sparseGet_foldl_raiseOne (s.loadedAs ws).spans (loadedWindow_spans_nodup _ _ _)]
    simp only [hp, true_and]
  · simp only [hp, if_false, false_and, Nat.add_zero]

theorem mem_loadWindow_phaseDue (w : Fin 64) (ws : List Word) (s : State) :
    w ∈ (loadWindow w ws s).sched.phaseDue ↔
      w ∈ s.sched.phaseDue ∨ (s.loadedAs ws).phase = .opened ∨ (s.loadedAs ws).phase = .settling ∨
        (s.loadedAs ws).phase.code ≠ bits (ws.getD 20 0) 2 0 ∨ (s.loadedAs ws).reason.code ≠ bits (ws.getD 20 0) 6 4 ∨
        (s.loadedAs ws).campaign ≠ bits (ws.getD 20 0) 15 8 := by
  have hdue : loadedWordDue (s.loadedAs ws) (ws.getD 20 0) = true ↔ (s.loadedAs ws).phase = .opened ∨
      (s.loadedAs ws).phase = .settling ∨ (s.loadedAs ws).phase.code ≠ bits (ws.getD 20 0) 2 0 ∨
      (s.loadedAs ws).reason.code ≠ bits (ws.getD 20 0) 6 4 ∨ (s.loadedAs ws).campaign ≠ bits (ws.getD 20 0) 15 8 := by
    simp only [loadedWordDue, Bool.or_eq_true, decide_eq_true_eq, or_assoc]
  rw [← hdue, loadWindow_sched]
  by_cases h : loadedWordDue (s.loadedAs ws) (ws.getD 20 0) = true
  · simp only [h, if_true, mem_dueWith, true_or, or_true]
  · simp only [h, if_false, or_false, Bool.false_eq_true]

/-! ### The step goes on (10 R176) -/

theorem goOnLoadWindows_next (s : State) (h : s.loader.index < s.params.windowCount) : goOnLoadWindows s =
    handRead .window (windowAddr s s.loader.index (loadWindowOffsets.getD 0 0)) .loadWindow (modLoader (fun l => { l with got := [] }) s) :=
  if_pos h

theorem goOnLoadWindows_last (s : State) (h : s.params.windowCount ≤ s.loader.index) : goOnLoadWindows s = beginCustodyStep s :=
  if_neg (Nat.not_lt.2 h)

/-- The window step that goes on, or ends, changes the Loader, the custody action and the queues of accesses alone. -/
theorem goOnLoadWindows_frame (s : State) :
    let t := goOnLoadWindows s
    t = { s with loader := t.loader, custody := t.custody, master := t.master } := by
  intro t
  by_cases h : s.loader.index < s.params.windowCount
  · rw [show t = _ from goOnLoadWindows_next s h]; rfl
  · rw [show t = _ from goOnLoadWindows_last s (Nat.not_lt.1 h)]; rfl

theorem goOnLoadWindows_sched (s : State) : (goOnLoadWindows s).sched = s.sched := congrArg (·.sched) (goOnLoadWindows_frame s)

/-- The last word of a window entry returns: the window is taken, and the step goes on. -/
theorem loadWindowReadDone_eq (data : Word) (s : State) (hrun : s.run = .loading) (hs : s.readsWith .loadWindow)
    (hl : s.loader.got.length = 21) :
    exec (.loadWindowReadDone data) s = .next (settle (goOnLoadWindows (modLoader (fun l => { l with index := s.loader.index + 1 })
      (loadWindow (Fin.ofNat 64 s.loader.index) (s.loader.got ++ [data]) s.portFreed)))) := by
  obtain ⟨q, addr, hport⟩ := hs
  have hcount : loadWindowOffsets.length = 22 := by decide
  have hlast : endsLoadWindow s = true := by simp [endsLoadWindow, State.portTag, hport, hl, hcount]
  show Host.Outcome.next (endOf (endsLoadWindow s) data s) = _
  rw [endOf_response _ data s q _ hport hlast, endAccess_read s _ rfl]
  simp [deliver, loadWindowRead, hrun, hl, hcount]

/-- After the Window Scheduler's work the step that goes on adds the Loader. -/
theorem goOnLoadWindows_after_work {s t : State} {f : Loader → Loader} (h : s.windowWork t) :
    let u := goOnLoadWindows (modLoader f t)
    u = { s with
      sched := u.sched, loader := u.loader, master := u.master, custody := u.custody, probes := u.probes, ctrl := u.ctrl } := by
  intro u
  have hframe : u = _ := goOnLoadWindows_frame (modLoader f t)
  rw [hframe, h]
  rfl

end Sys2Proof.Machine

open Sys2Proof Sys2Proof.Machine

/-- Settles O21: the table row by row, and the entry taken as `loadWindow_sched` says. -/
theorem loadWindowStepTakesTheEntry : Obligations.LoadWindowStepTakesTheEntry := by
  refine ⟨?_, ?_⟩
  · intro dflt now ws x y prev
    refine ⟨loadedWindow_unarmed dflt now ws, loadedWindow_invalid dflt now ws, fun ha ht ho => ?_, fun ha ho hc => ?_,
      fun ha ht hc hp => ?_, fun ha ht hc hp => ?_, fun ha ht hc h1 h2 h3 => ?_⟩
    · exact (loadedWindow_timed dflt now ws ha ht).trans (if_pos ho)
    · have ht : x.openTime < x.closeTime := by bv_omega
      exact (loadedWindow_timed dflt now ws ha ht).trans ((if_neg (BitVec.not_lt.2 ho)).trans (if_pos hc))
    · exact (loadedWindow_past dflt now ws ha ht hc).trans (if_pos hp)
    · have hf : prev ≠ .finished := by rcases hp with hp | hp <;> simp [hp]
      exact (loadedWindow_past dflt now ws ha ht hc).trans ((if_neg hf).trans (if_pos hp))
    · exact (loadedWindow_past dflt now ws ha ht hc).trans ((if_neg h1).trans (if_neg fun h => h.elim h2 h3))
  · intro data s hrun _ hs hl ws w y
    let taken := loadWindow w ws s.portFreed
    let moved := modLoader (fun l => { l with index := s.loader.index + 1 }) taken
    have hexec : exec (.loadWindowReadDone data) s = .next (settle (goOnLoadWindows moved)) :=
      loadWindowReadDone_eq data s hrun hs hl
    have hwork : s.portFreed.windowWork taken := loadWindow_work w ws s.portFreed
    have hframe : goOnLoadWindows moved = _ := goOnLoadWindows_after_work hwork
    have hsched : (goOnLoadWindows moved).sched = taken.sched := goOnLoadWindows_sched moved
    have hwindow : ∀ v, (goOnLoadWindows moved).window v = taken.window v := fun v => by simp only [State.window, hsched]
    have hrest : (settle (goOnLoadWindows moved)).run = .loading :=
      (settle_run _).trans ((congrArg (·.run) hframe).trans hrun)
    have hloader : taken.loader = s.loader := congrArg (·.loader) hwork
    have hparams : taken.params = s.params := congrArg (·.params) hwork
    have hkeep := settle_keeps (s := s) (congrArg (·.hostSide) hframe)
    refine ⟨_, hexec, hrest, hframe, hkeep.1, hkeep.2, ?_, fun v hv => ?_, ?_, fun x => ?_, ?_, fun hc => ?_, fun hc => ?_⟩
    · rw [hwindow]
      exact (loadWindow_window w w ws s.portFreed).trans (if_pos rfl)
    · rw [hwindow]
      exact (loadWindow_window w v ws s.portFreed).trans (if_neg hv)
    · rw [hsched]
      exact congrArg (·.slotWait) (loadWindow_sched w ws s.portFreed)
    · have hcount : (goOnLoadWindows moved).fenceCount x = taken.fenceCount x := by simp only [State.fenceCount, hsched]
      rw [hcount]
      exact loadWindow_fenceCount w ws s.portFreed x
    · rw [hsched]
      exact mem_loadWindow_phaseDue w ws s.portFreed
    · have hnext : moved.loader.index < moved.params.windowCount := by
        show s.loader.index + 1 < taken.params.windowCount
        rwa [hparams]
      rw [goOnLoadWindows_next moved hnext, ← hloader]
      exact ⟨rfl, congrArg (fun l => l.index + 1) hloader.symm⟩
    · have hlast : moved.params.windowCount ≤ moved.loader.index := by
        show taken.params.windowCount ≤ s.loader.index + 1
        rwa [hparams]
      rw [goOnLoadWindows_last moved hlast]
      exact ⟨rfl, rfl⟩

end

section
/-! PROOF. The phase words (02 R37, 11 R183): their bits, their hand-over at the end of an event, and the response of one written. -/

namespace Sys2Proof.Machine

/-! ### The bits of a phase word (11 R183) -/

/-- A value that fits its field is the field's bits alone. -/
theorem field_toNat (v width lo : Nat) (hv : v < 2 ^ width) (hlo : width + lo ≤ 32) : (field v width lo).toNat = v * 2 ^ lo := by
  have hfit : v * 2 ^ lo < 2 ^ 32 := calc
    v * 2 ^ lo < 2 ^ width * 2 ^ lo := Nat.mul_lt_mul_of_pos_right hv (Nat.two_pow_pos lo)
    _ = 2 ^ (width + lo) := (Nat.pow_add 2 width lo).symm
    _ ≤ 2 ^ 32 := Nat.pow_le_pow_right (by decide) hlo
  rw [field, Nat.mod_eq_of_lt hv, BitVec.toNat_ofNat, Nat.mod_eq_of_lt hfit]

theorem Phase.code_lt (p : Phase) : p.code < 2 ^ 3 := by cases p <;> decide

/-- The three fields share no bit, so the word is their sum. -/
theorem phaseWord_toNat (x : Window) (hr : x.reason.code < 8) (hc : x.campaign < 256) :
    (phaseWord x).toNat = x.phase.code + 16 * x.reason.code + 256 * x.campaign := by
  have hp := x.phase.code_lt
  have low : x.phase.code ||| x.reason.code * 2 ^ 4 = 2 ^ 4 * x.reason.code + x.phase.code := by
    rw [Nat.two_pow_add_eq_or_of_lt (by omega), Nat.or_comm, Nat.mul_comm]
  have high : (2 ^ 4 * x.reason.code + x.phase.code) ||| x.campaign * 2 ^ 8 =
      2 ^ 8 * x.campaign + (2 ^ 4 * x.reason.code + x.phase.code) := by
    rw [Nat.two_pow_add_eq_or_of_lt (i := 8) (by omega), Nat.or_comm, Nat.mul_comm x.campaign]
  rw [phaseWord, BitVec.toNat_or, BitVec.toNat_or, field_toNat _ _ _ hp (by decide), field_toNat _ _ _ hr (by decide),
    field_toNat _ _ _ hc (by decide), Nat.pow_zero, Nat.mul_one, low, high]
  omega

/-! ### The hand-over at the end of an event (02 R37) -/

/-- The two writes of a window's phase word: the phase time, then the word. -/
def State.phaseWrites (s : State) (w : Fin 64) : List Access :=
  [⟨addrOf s.params.windowList (96 * w.val + 0x5C), some s.clock.netTime, .plain⟩,
    ⟨addrOf s.params.windowList (96 * w.val + 0x58), some (phaseWord (s.window w)), .phaseWord⟩]

theorem phaseWordWrites_queue (w : Fin 64) (s : State) (r : Requester) :
    (phaseWordWrites w s).queue r = s.queue r ++ (if r = .window then s.phaseWrites w else []) := by
  simp only [phaseWordWrites, handWrite_queue_of]
  by_cases hr : r = .window
  · simp [hr, State.phaseWrites]
  · simp [hr]

theorem foldl_phaseWordWrites_frame (l : List (Fin 64)) (s : State) :
    let t := l.foldl (fun t w => phaseWordWrites w t) s
    t = { s with master := t.master } := by
  induction l generalizing s with
  | nil => rfl
  | cons w l ih => exact ih (phaseWordWrites w s)

theorem foldl_phaseWordWrites_port (l : List (Fin 64)) (s : State) :
    (l.foldl (fun t w => phaseWordWrites w t) s).master.port = s.master.port := by
  induction l generalizing s with
  | nil => rfl
  | cons w l ih => exact ih (phaseWordWrites w s)

theorem foldl_phaseWordWrites_queue (l : List (Fin 64)) (s : State) (r : Requester) :
    (l.foldl (fun t w => phaseWordWrites w t) s).queue r =
      s.queue r ++ (if r = .window then l.flatMap s.phaseWrites else []) := by
  induction l generalizing s with
  | nil => simp
  | cons w l ih =>
    have same : (phaseWordWrites w s).phaseWrites = s.phaseWrites := rfl
    rw [List.foldl_cons, ih, phaseWordWrites_queue, same]
    by_cases hr : r = .window
    · simp [hr]
    · simp [hr]

theorem flushPhaseWords_frame (s : State) :
    flushPhaseWords s = { s with sched := { s.sched with phaseDue := [] }, master := (flushPhaseWords s).master } :=
  foldl_phaseWordWrites_frame s.sched.phaseDue { s with sched := { s.sched with phaseDue := [] } }

@[simp] theorem flushPhaseWords_phaseDue (s : State) : (flushPhaseWords s).sched.phaseDue = [] :=
  congrArg (·.sched.phaseDue) (flushPhaseWords_frame s)

/-- The phase words due join the Window Scheduler's queue, in the order in which they fell due. -/
theorem flushPhaseWords_queue (s : State) (r : Requester) : (flushPhaseWords s).queue r =
    s.queue r ++ (if r = .window then s.sched.phaseDue.flatMap s.phaseWrites else []) :=
  foldl_phaseWordWrites_queue s.sched.phaseDue { s with sched := { s.sched with phaseDue := [] } } r

theorem flushPhaseWords_port (s : State) : (flushPhaseWords s).master.port = s.master.port :=
  foldl_phaseWordWrites_port s.sched.phaseDue { s with sched := { s.sched with phaseDue := [] } }

/-! ### No phase word stays due -/

@[simp] theorem issue_sched (s : State) : (issue s).sched = s.sched := by
  unfold issue
  (repeat' split) <;> rfl

@[simp] theorem serveStop_sched (s : State) : (serveStop s).sched = s.sched := by
  cases h : stopComplete s with
  | false => rw [serveStop_waits s h]
  | true => rw [serveStop_hands s h]; rfl

/-- The service that ends an event leaves no phase word due. -/
theorem settle_phaseDue (s : State) : (settle s).sched.phaseDue = [] := by
  simp [settle]

/-- A word written has reached memory (02 R37). -/
theorem phaseWordWritten_eq (data : Word) (s : State) (r : Requester) (x : Access) (hp : s.master.port = some (r, x))
    (ht : x.tag = .phaseWord) :
    exec (.phaseWordWritten data) s = .next (settle (setEvent .windowChange (endAccess x s))) := by
  have hlast : decide (s.portTag = some .phaseWord) = true := by simp [State.portTag, hp, ht]
  show Host.Outcome.next (endOf (decide (s.portTag = some .phaseWord)) data s) = _
  rw [endOf_response _ data s r x hp hlast, ht]
  rfl

end Sys2Proof.Machine

open Sys2Proof Sys2Proof.Machine

/-- Settles O22: the flush of the list, the word's fields, and the event bit that the written word sets. -/
theorem phaseWordWrittenSetsWindowChange : Obligations.PhaseWordWrittenSetsWindowChange := by
  refine ⟨fun s => ?_, phaseWord_toNat, fun w f s => ⟨by simp, fun v => by simp [mem_dueWith]⟩, fun data s r x hp ht => ?_⟩
  · exact ⟨flushPhaseWords_frame s, flushPhaseWords_queue s .window,
      fun r hr => by simp [flushPhaseWords_queue, hr], flushPhaseWords_port s, settle_phaseDue s⟩
  · refine ⟨_, phaseWordWritten_eq data s r x hp ht, by simp, rfl, fun e he => ?_, fun a ha => ?_⟩
    · have hne : Event.windowChange ≠ e := he.symm
      simp only [setEvent_hasEvent, decide_eq_false hne, Bool.false_or]
      rfl
    · have h := response_outside data s r x hp a ha
      rwa [ht] at h

end

section
/-! PROOF. Time on an empty queue: the timers that have run out, and the millisecond that passes (02 R24, 04 R76 R79 R80, 05 R91 R94,
09 R158, 10 R178). -/

namespace Sys2Proof.Machine

/-! ### The timers that have run out -/

/-- A timer that has come to 0. -/
def ranOut (t : Option Nat) : Prop := t = some 0

/-- The expiry that a command gives: the command's own timer runs, and has come to 0. -/
inductive Expiry (s : State) : Instr → Prop where
  | bus : s.master.port.isSome = true → ranOut s.master.timer → Expiry s .busTimeout
  | holdOff (k) : holdOffRuns s k = true → ranOut (s.link k).holdOff → Expiry s (.holdOffExpiry k)
  | waiting (i) : s.run = .running → (s.entry i).state = .waiting → ranOut (s.entry i).timer → Expiry s (.probeTimeout i)
  | backoff (i) : s.run = .running → (s.entry i).state = .backoff → ranOut (s.entry i).timer → Expiry s (.backoffExpiry i)
  | gap (k) : s.run = .running → ranOut (s.launchSched k).gap → Expiry s (.launchGapExpiry k)
  | poll : s.run = .running → ranOut s.reader.pollTimer → Expiry s .pollTimerExpiry

theorem probeTimer_due_iff (s : State) (st : EntryState) (i : Fin 64) :
    (probeTimerRuns s st i && decide ((s.entry i).timer = some 0)) = true ↔
      s.run = .running ∧ (s.entry i).state = st ∧ ranOut (s.entry i).timer := by
  simp only [probeTimerRuns, ranOut, Bool.and_eq_true, decide_eq_true_eq, and_assoc]
  refine and_congr_right fun _ => and_congr_right fun _ => ⟨And.right, fun h => ⟨by simp [h], h⟩⟩

theorem gap_due_iff (s : State) (k : Fin 4) :
    (gapRuns s k && decide ((s.launchSched k).gap = some 0)) = true ↔ s.run = .running ∧ ranOut (s.launchSched k).gap := by
  simp only [gapRuns, ranOut, Bool.and_eq_true, decide_eq_true_eq, and_assoc]
  refine and_congr_right fun _ => ⟨And.right, fun h => ⟨by simp [h], h⟩⟩

theorem poll_due_iff (s : State) :
    (pollTimerRuns s && decide (s.reader.pollTimer = some 0)) = true ↔ s.run = .running ∧ ranOut s.reader.pollTimer := by
  simp only [pollTimerRuns, ranOut, Bool.and_eq_true, decide_eq_true_eq, and_assoc]
  refine and_congr_right fun _ => ⟨And.right, fun h => ⟨by simp [h], h⟩⟩

theorem holdOff_due_iff (s : State) (k : Fin 4) :
    (holdOffRuns s k && decide ((s.link k).holdOff = some 0)) = true ↔ holdOffRuns s k = true ∧ ranOut (s.link k).holdOff := by
  simp only [ranOut, Bool.and_eq_true, decide_eq_true_eq]

theorem bus_due_iff (s : State) :
    (s.master.port.isSome && decide (s.master.timer = some 0)) = true ↔ s.master.port.isSome = true ∧ ranOut s.master.timer := by
  simp only [ranOut, Bool.and_eq_true, decide_eq_true_eq]

/-- The command due: the first that a timer gives, in the fixed order among timers (log entry 11). -/
theorem dueCommand_eq (s : State) : dueCommand s =
    (if s.master.port.isSome && decide (s.master.timer = some 0) then some Instr.busTimeout else none).or
    (((pick (fun k => holdOffRuns s k && decide ((s.link k).holdOff = some 0)) (List.finRange 4)).map .holdOffExpiry).or
    (((pick (fun i => probeTimerRuns s .waiting i && decide ((s.entry i).timer = some 0)) (List.finRange 64)).map .probeTimeout).or
    (((pick (fun i => probeTimerRuns s .backoff i && decide ((s.entry i).timer = some 0)) (List.finRange 64)).map .backoffExpiry).or
    (((pick (fun k => gapRuns s k && decide ((s.launchSched k).gap = some 0)) (List.finRange 4)).map .launchGapExpiry).or
    (if pollTimerRuns s && decide (s.reader.pollTimer = some 0) then some .pollTimerExpiry else none))))) := by
  unfold dueCommand
  (repeat' split) <;> simp only [*, Option.or, Option.map]

/-- What a search gives stands for an element that passes the test. -/
theorem map_pick_eq_some {α : Type} (p : α → Bool) (l : List α) (f : α → Instr) (c : Instr) (h : (pick p l).map f = some c) :
    ∃ a, p a = true ∧ f a = c := by
  obtain ⟨a, ha, hc⟩ := Option.map_eq_some_iff.1 h
  exact ⟨a, (pick_eq_some p l a ha).1, hc⟩

/-- A search of all indices that gives nothing: no index passes the test. -/
theorem map_pick_eq_none {n : Nat} (p : Fin n → Bool) (f : Fin n → Instr) (h : (pick p (List.finRange n)).map f = none) (a : Fin n) :
    ¬ p a = true :=
  Bool.eq_false_iff.1 (pick_eq_none p _ (Option.map_eq_none_iff.1 h) a (List.mem_finRange a))

theorem dueCommand_expiry (s : State) (c : Instr) (h : dueCommand s = some c) : Expiry s c := by
  simp only [dueCommand_eq, Option.or_eq_some_iff] at h
  rcases h with h | ⟨-, h | ⟨-, h | ⟨-, h | ⟨-, h | ⟨-, h⟩⟩⟩⟩⟩
  · obtain ⟨hd, hc⟩ := Option.ite_none_right_eq_some.1 h
    obtain ⟨hport, htimer⟩ := (bus_due_iff s).1 hd
    exact Option.some.inj hc ▸ .bus hport htimer
  · obtain ⟨k, hd, rfl⟩ := map_pick_eq_some _ _ _ _ h
    obtain ⟨hruns, htimer⟩ := (holdOff_due_iff s k).1 hd
    exact .holdOff k hruns htimer
  · obtain ⟨i, hd, rfl⟩ := map_pick_eq_some _ _ _ _ h
    obtain ⟨hrun, hstate, htimer⟩ := (probeTimer_due_iff s .waiting i).1 hd
    exact .waiting i hrun hstate htimer
  · obtain ⟨i, hd, rfl⟩ := map_pick_eq_some _ _ _ _ h
    obtain ⟨hrun, hstate, htimer⟩ := (probeTimer_due_iff s .backoff i).1 hd
    exact .backoff i hrun hstate htimer
  · obtain ⟨k, hd, rfl⟩ := map_pick_eq_some _ _ _ _ h
    obtain ⟨hrun, htimer⟩ := (gap_due_iff s k).1 hd
    exact .gap k hrun htimer
  · obtain ⟨hd, hc⟩ := Option.ite_none_right_eq_some.1 h
    obtain ⟨hrun, htimer⟩ := (poll_due_iff s).1 hd
    exact Option.some.inj hc ▸ .poll hrun htimer

/-- With no command due, no running timer stands at 0. -/
theorem no_expiry_of_dueCommand_none (s : State) (h : dueCommand s = none) (c : Instr) : ¬ Expiry s c := by
  simp only [dueCommand_eq, Option.or_eq_none_iff] at h
  obtain ⟨hbus, hholdOff, hwaiting, hbackoff, hgap, hpoll⟩ := h
  intro hc
  cases hc with
  | bus hport htimer => simp [(bus_due_iff s).2 ⟨hport, htimer⟩] at hbus
  | holdOff k hruns htimer => exact map_pick_eq_none _ _ hholdOff k ((holdOff_due_iff s k).2 ⟨hruns, htimer⟩)
  | waiting i hrun hstate htimer =>
    exact map_pick_eq_none _ _ hwaiting i ((probeTimer_due_iff s .waiting i).2 ⟨hrun, hstate, htimer⟩)
  | backoff i hrun hstate htimer =>
    exact map_pick_eq_none _ _ hbackoff i ((probeTimer_due_iff s .backoff i).2 ⟨hrun, hstate, htimer⟩)
  | gap k hrun htimer => exact map_pick_eq_none _ _ hgap k ((gap_due_iff s k).2 ⟨hrun, htimer⟩)
  | poll hrun htimer => simp [(poll_due_iff s).2 ⟨hrun, htimer⟩] at hpoll

/-! ### The millisecond that passes -/

theorem countTimers_frame (s : State) :
    let t := countTimers s
    t = { s with master := t.master, links := t.links, probes := t.probes, reader := t.reader } := by
  intro t
  by_cases h : s.run = .running
  · simp only [t, countTimers, if_pos h]
  · simp only [t, countTimers, if_neg h]

theorem countTimers_master (s : State) :
    (countTimers s).master = { s.master with timer := countDown s.master.timer } := by
  by_cases h : s.run = .running
  · simp only [countTimers, if_pos h]
  · simp only [countTimers, if_neg h]

theorem countTimers_links (s : State) : (countTimers s).links =
    vmap (fun l => if monitorsRest s then l else { l with holdOff := countDown l.holdOff }) s.links := by
  by_cases h : s.run = .running
  · simp only [countTimers, if_pos h]
  · simp only [countTimers, if_neg h]

theorem countTimers_link (s : State) (k : Fin 4) : (countTimers s).link k =
    { s.link k with holdOff := if monitorsRest s then (s.link k).holdOff else countDown (s.link k).holdOff } := by
  rw [State.link, countTimers_links, vmap_get]
  cases monitorsRest s <;> rfl

/-- In RUNNING the probe timers, the launch gaps and the poll timer count too. -/
theorem countTimers_running (s : State) (h : s.run = .running) :
    (∀ i, (countTimers s).entry i = { s.entry i with timer := countDown (s.entry i).timer }) ∧
    (∀ k, (countTimers s).launchSched k = { s.launchSched k with gap := countDown (s.launchSched k).gap }) ∧
    (countTimers s).probes.outcomes = s.probes.outcomes ∧
    (countTimers s).reader = { s.reader with pollTimer := countDown s.reader.pollTimer } := by
  rw [countTimers, if_pos h]
  exact ⟨fun i => vmap_get _ _ i, fun k => vmap_get _ _ k, rfl, rfl⟩

theorem countTimers_not_running (s : State) (h : s.run ≠ .running) :
    (countTimers s).probes = s.probes ∧ (countTimers s).reader = s.reader := by
  simp only [countTimers, if_neg h, and_self]

theorem countTimers_clock (s : State) : (countTimers s).clock = s.clock := congrArg (·.clock) (countTimers_frame s)

theorem tick_within_second (s : State) (h : (countTimers s).clock.subCount < 999) : tick s =
    { countTimers s with clock := { (countTimers s).clock with subCount := (countTimers s).clock.subCount + 1 } } := if_pos h

theorem tick_second (s : State) (h : 999 ≤ (countTimers s).clock.subCount) : tick s =
    settle (evalWindows { countTimers s with clock := { netTime := s.clock.netTime + 1, subCount := 0 } }) := by
  rw [tick, if_neg (Nat.not_lt.2 h), secondTick, countTimers_clock]

/-! ### The step on an empty queue -/

theorem step_held (s : State) (hp : s.pending = []) (h : s.held = true) : step s = .next s := by
  simp [step, stepQueue, hp, idleStep, h]

theorem step_expiry (s : State) (hp : s.pending = []) (h : s.held = false) (c : Instr) (hc : dueCommand s = some c) :
    step s = exec c s := by
  simp [step, stepQueue, hp, idleStep, h, hc]

theorem step_millisecond (s : State) (hp : s.pending = []) (h : s.held = false) (hc : dueCommand s = none) :
    step s = .next (tick s) := by
  simp [step, stepQueue, hp, idleStep, h, hc]

end Sys2Proof.Machine

open Sys2Proof Sys2Proof.Machine

/-- Settles O55: the step on an empty queue is an expiry or a millisecond, and the command due is an `Expiry`. -/
theorem idleStepLetsTimePass : Obligations.IdleStepLetsTimePass := by
  intro s hp runs less counted
  refine ⟨step_held s hp, fun h => ⟨step_expiry s hp h, fun hc ht => ?_, fun hc ht => ?_⟩, fun c hc => ?_, fun hc => ?_,
    countTimers_frame s, countTimers_master s, countTimers_link s, countTimers_running s, countTimers_not_running s⟩
  · rw [step_millisecond s hp h hc, tick_within_second s ht]
  · rw [step_millisecond s hp h hc, tick_second s ht]
  · cases dueCommand_expiry s c hc with
    | bus hport htimer => exact .inl ⟨rfl, hport, htimer⟩
    | holdOff k hruns htimer => exact .inr (.inl ⟨k, rfl, hruns, htimer⟩)
    | waiting i hrun hstate htimer => exact .inr (.inr (.inl ⟨i, rfl, hrun, hstate, htimer⟩))
    | backoff i hrun hstate htimer => exact .inr (.inr (.inr (.inl ⟨i, rfl, hrun, hstate, htimer⟩)))
    | gap k hrun htimer => exact .inr (.inr (.inr (.inr (.inl ⟨k, rfl, hrun, htimer⟩))))
    | poll hrun htimer => exact .inr (.inr (.inr (.inr (.inr ⟨rfl, hrun, htimer⟩))))
  · have none_due := no_expiry_of_dueCommand_none s hc
    refine ⟨fun hport htimer => none_due _ (.bus hport htimer), fun k hruns htimer => none_due _ (.holdOff k hruns htimer),
      fun hrun => ⟨fun i hstate htimer => ?_, fun k htimer => none_due _ (.gap k hrun htimer),
        fun htimer => none_due _ (.poll hrun htimer)⟩⟩
    rcases hstate with hstate | hstate
    · exact none_due _ (.waiting i hrun hstate htimer)
    · exact none_due _ (.backoff i hrun hstate htimer)

end

section
/-! PROOF. The outcome of a selection step (03 R53 to R56 R69): each outcome changes the campaign's counts at most, and ends the step with
the cursor advanced, begins the step afresh, or begins its Reach Map read. -/

namespace Sys2Proof.Machine

/-! ### The end of a selection step (03 R53) -/

/-- From `s` to `t` the step of campaign `i` ends with the cursor advanced: but for cursor, state and step the campaign stands as `d`. -/
def StepMoves (i : Fin 8) (s t : State) (d : Campaign) : Prop :=
  let next := (s.campaign i).nextCursor s.params.circuitCount
  (∀ j, j ≠ i → t.campaign j = s.campaign j) ∧
  (s.params.circuitCount ≤ next →
    t.campaign i = { d with cursor := next, state := .draining, step := .idle } ∧ t.custody = s.custody ∧
    t.queue .campaign = s.queue .campaign ++
      [⟨addrOf s.params.controlBlock (0x170 + 4 * i.val), some (slotWord (t.campaign i)), .plain⟩]) ∧
  (next < s.params.circuitCount → t.queue .campaign = s.queue .campaign ∧
    (s.run = .running → t.campaign i = { d with cursor := next, step := .custody } ∧
      t.custody = { s.custody with queue := s.custody.queue ++ [(s.eventNo, .select i (s.campaign i).id next true)] }) ∧
    (s.run ≠ .running → t.campaign i = { d with cursor := next, step := .idle } ∧ t.custody = s.custody))

/-- What a step may have changed before its end: the campaign's own record, and the Probe Table. -/
structure BeforeStepEnd (i : Fin 8) (s u : State) : Prop where
  frame : u = { s with ctrl := u.ctrl, probes := u.probes }
  others : ∀ j, j ≠ i → u.campaign j = s.campaign j
  id : (u.campaign i).id = (s.campaign i).id
  next : (u.campaign i).nextCursor s.params.circuitCount = (s.campaign i).nextCursor s.params.circuitCount

theorem BeforeStepEnd.refl (i : Fin 8) (s : State) : BeforeStepEnd i s s := ⟨rfl, fun _ _ => rfl, rfl, rfl⟩

theorem modCounts_beforeStepEnd (i : Fin 8) (f : Counts → Counts) (s : State) : BeforeStepEnd i s (modCounts i f s) where
  frame := rfl
  others j hj := (modCampaign_campaign i j _ s).trans (if_neg hj)
  id := by simp [modCounts]
  next := by simp [modCounts, Campaign.nextCursor]

theorem BeforeStepEnd.queue {i : Fin 8} {s u : State} (h : BeforeStepEnd i s u) (r : Requester) : u.queue r = s.queue r := by
  rw [h.frame]; rfl

theorem endStep_frame (i : Fin 8) (s : State) : endStep i s =
    { s with ctrl := (endStep i s).ctrl, custody := (endStep i s).custody, master := (endStep i s).master } :=
  (endStep_cases i s).1

theorem endStep_moves {i : Fin 8} {s u : State} (h : BeforeStepEnd i s u) : StepMoves i s (endStep i u) (u.campaign i) := by
  obtain ⟨-, hothers, -, -, -, -, -, hlast, hnext⟩ := endStep_cases i u
  have hparams : u.params = s.params := by rw [h.frame]
  have hcustody : u.custody = s.custody := by rw [h.frame]
  have hrun : u.run = s.run := by rw [h.frame]; rfl
  have hevent : u.eventNo = s.eventNo := by rw [h.frame]
  simp only [hparams, hcustody, hrun, hevent, h.queue, h.id, h.next] at hlast hnext
  simp only [StepMoves, h.id]
  exact ⟨fun j hj => (hothers j hj).trans (h.others j hj), hlast, hnext⟩

/-! ### The branches of an outcome (03 R54 R55 R56) -/

theorem SpanSet.meets_list (l spans : List Nat) : (SpanSet.list l).meets spans = true ↔ ∃ x ∈ spans, x ∈ l := by
  simp [SpanSet.meets]

section Outcome

variable (i : Fin 8) (sel : Selected) (claimed : Bool) (s : State)

theorem spanTest_missed (h : ¬ (s.campaign i).spanSet.meets sel.spans = true) : spanTest i claimed sel s = endStep i s := by
  simp [spanTest, h]

theorem spanTest_fenced (h : (s.campaign i).spanSet.meets sel.spans = true) (hf : s.anyFenced sel.spans = true) :
    spanTest i claimed sel s = endStep i (modCounts i Counts.addSelectedDeferred s) := by
  simp [spanTest, h, hf]

theorem spanTest_claimed (h : (s.campaign i).spanSet.meets sel.spans = true) (hf : ¬ s.anyFenced sel.spans = true) :
    spanTest i true sel s = joinEntry i sel s := by
  simp [spanTest, h, hf]

theorem spanTest_watched (h : (s.campaign i).spanSet.meets sel.spans = true) (hf : ¬ s.anyFenced sel.spans = true) :
    spanTest i false sel s = reachClaim i sel s := by
  simp [spanTest, h, hf]

/-- The entry and the campaign as a join leaves them, before the step ends. -/
def joined (e : Fin 64) : State :=
  modCampaign i (fun c =>
    { c with
      joinedOut := c.joinedOut + 1
      counts := { c.counts with selected := c.counts.selected + 1, joined := c.counts.joined + 1 } })
    (modEntry e (fun x => { x with joiners := insertJoiner i x.joiners }) s)

theorem joinEntry_held (e : Fin 64) (h : holdingEntry s sel.circuit = some e) : joinEntry i sel s = endStep i (joined i s e) := by
  simp [joinEntry, h, joined]

theorem joinEntry_gone (h : holdingEntry s sel.circuit = none) : joinEntry i sel s = restartStep i s := by
  simp [joinEntry, h]

theorem joined_campaign (e : Fin 64) : (joined i s e).campaign i =
    { s.campaign i with
      joinedOut := (s.campaign i).joinedOut + 1
      counts := { (s.campaign i).counts with
        selected := (s.campaign i).counts.selected + 1, joined := (s.campaign i).counts.joined + 1 } } :=
  (modCampaign_campaign i i _ _).trans (if_pos rfl)

theorem joined_beforeStepEnd (e : Fin 64) : BeforeStepEnd i s (joined i s e) where
  frame := rfl
  others j hj := (modCampaign_campaign i j _ _).trans (if_neg hj)
  id := by rw [joined_campaign]
  next := by rw [joined_campaign]; rfl

theorem joined_entry (e j : Fin 64) : (joined i s e).entry j =
    if j = e then { s.entry e with joiners := insertJoiner i (s.entry e).joiners } else s.entry j :=
  modEntry_entry e j (fun x => { x with joiners := insertJoiner i x.joiners }) s

/-! ### What is left of the step's campaign where no step ends (03 R56, 04 R72) -/

theorem setStep_campaign (step : SelStep) (j : Fin 8) : (modCampaign i (fun c => { c with step := step }) s).campaign j =
    if j = i then { s.campaign i with step := step } else s.campaign j := modCampaign_campaign i j _ s

/-- In RUNNING a step begun afresh stands where it stood, and asks for its custody action again. -/
theorem restartStep_running (hr : s.run = .running) (hstep : (s.campaign i).step = .custody) :
    let t := restartStep i s
    t = { s with ctrl := t.ctrl, custody := t.custody } ∧ (∀ j, t.campaign j = s.campaign j) ∧
    t.custody = { s.custody with
      queue := s.custody.queue ++ [(s.eventNo, .select i (s.campaign i).id (s.campaign i).stepCircuit true)] } := by
  intro t
  have ht : t = beginStep i s := if_pos hr
  rw [ht]
  refine ⟨rfl, fun j => ?_, rfl⟩
  have h : (beginStep i s).campaign j = _ := setStep_campaign i s .custody j
  rw [h]
  by_cases hj : j = i
  · rw [if_pos hj, hj, ← hstep]
  · exact if_neg hj

/-- A Reach Map read begun: the step keeps what the custody action found, and the access is the Probe Table's. -/
theorem reachClaim_effect :
    let t := reachClaim i sel s
    t = { s with ctrl := t.ctrl, master := t.master } ∧
    (∀ j, t.campaign j = if j = i then { s.campaign i with step := .reach sel } else s.campaign j) ∧
    (∀ q, t.queue q = if q = .probe then
      s.queue .probe ++ [⟨addrOf s.params.reachMap sel.head &&& 0xFFFFFFFC, none, .reach i⟩] else s.queue q) :=
  ⟨rfl, setStep_campaign i s (.reach sel), fun q => handRead_queue_of _ q _ _ _⟩

/-- An outcome is acted on for a campaign in SELECTING that waits for it, in RUNNING and STOPPING alone (03 R69). -/
theorem stepOutcome_outside (o : SelectOutcome) (h : (s.run ≠ .running ∧ s.run ≠ .stopping) ∨ (s.campaign i).state ≠ .selecting ∨
    (s.campaign i).step ≠ .custody) : stepOutcome i o s = s := by
  unfold stepOutcome
  exact if_neg (by tauto)

theorem stepOutcome_waiting (o : SelectOutcome) (hr : s.run = .running ∨ s.run = .stopping) (hs : (s.campaign i).state = .selecting)
    (hc : (s.campaign i).step = .custody) : stepOutcome i o s =
      match o with
      | .notWatched => endStep i s
      | .unusable => endStep i s
      | .rejected =>
        endStep i (modCounts i (fun n => { n with selected := n.selected + 1, routeInvalid := n.routeInvalid + 1 }) s)
      | .watched sel => if s.run = .running then spanTest i false sel s else modCampaign i (fun c => { c with step := .idle }) s
      | .claimed sel => if s.run = .running then spanTest i true sel s else modCampaign i (fun c => { c with step := .idle }) s := by
  unfold stepOutcome
  exact (if_pos ⟨hr, hs, hc⟩).trans (by cases o <;> rfl)

end Outcome

end Sys2Proof.Machine

open Sys2Proof Sys2Proof.Machine

/-- Settles O31: the end of a step (`endStep_moves`) serves every outcome that ends one; the three others are a restart, a Reach Map read
and, in STOPPING, a step given up. -/
theorem selectionOutcomesMoveTheCursor : Obligations.SelectionOutcomesMoveTheCursor := by
  intro i s c next meets fenced moves skips counts
  have hnext : next = c.nextCursor s.params.circuitCount := by
    simp only [next, Campaign.nextCursor]
    cases c.spanSet <;> rfl
  have hmeets : ∀ sel : Selected, c.spanSet.meets sel.spans = true ↔ meets sel := by
    intro sel
    simp only [meets]
    cases c.spanSet with
    | list l => exact SpanSet.meets_list l sel.spans
    | all => simp [SpanSet.meets]
    | single k => simp [SpanSet.meets]
  have hfenced : ∀ sel : Selected, s.anyFenced sel.spans = true ↔ fenced sel := fun sel => anyFenced_iff s sel.spans
  have hmoves : ∀ u, BeforeStepEnd i s u → moves (endStep i u) (u.campaign i) := by
    intro u h
    simp only [moves, hnext]
    exact endStep_moves h
  have hskips : skips (endStep i s) := ⟨hmoves s (.refl i s), endStep_frame i s⟩
  have hcounts : ∀ f : Counts → Counts, counts (endStep i (modCounts i f s)) (f c.counts) := by
    intro f
    have h := hmoves _ (modCounts_beforeStepEnd i f s)
    rw [show (modCounts i f s).campaign i = { c with counts := f c.counts } from (modCampaign_campaign i i _ s).trans (if_pos rfl)] at h
    exact ⟨h, endStep_frame i _⟩
  refine ⟨fun h o => stepOutcome_outside i s o h, fun hrun hs hc => ?_⟩
  have hout := fun o => stepOutcome_waiting i s o hrun hs hc
  refine ⟨hout .notWatched ▸ hskips, hout .unusable ▸ hskips, hout .rejected ▸ hcounts _, fun sel o ho => ?_⟩
  obtain ⟨claimed, hclaimed, htest⟩ : ∃ claimed : Bool, (o = .claimed sel ↔ claimed = true) ∧ stepOutcome i o s =
      if s.run = .running then spanTest i claimed sel s else modCampaign i (fun c => { c with step := .idle }) s := by
    rcases List.mem_pair.1 ho with rfl | rfl
    · exact ⟨false, by simp, hout _⟩
    · exact ⟨true, by simp, hout _⟩
  intro t
  have ht : s.run = .running → t = spanTest i claimed sel s := fun hr => htest.trans (if_pos hr)
  refine ⟨fun hr => htest.trans (if_neg hr), fun hr hm => ?_, fun hr hm hf => ?_, fun hr hm hf hoc => ?_, fun hr hm hf how => ?_⟩
  · rw [ht hr, spanTest_missed i sel claimed s (mt (hmeets sel).1 hm)]
    exact hskips
  · rw [ht hr, spanTest_fenced i sel claimed s ((hmeets sel).2 hm) ((hfenced sel).2 hf)]
    exact hcounts _
  · have hjoin : t = joinEntry i sel s := by
      rw [ht hr, hclaimed.1 hoc]
      exact spanTest_claimed i sel s ((hmeets sel).2 hm) (mt (hfenced sel).1 hf)
    refine ⟨fun e he => ?_, fun he => ?_⟩
    · rw [hjoin, joinEntry_held i sel s e he]
      have hframe := endStep_frame i (joined i s e)
      have hentry : ∀ j, (endStep i (joined i s e)).entry j = _ := fun j => (congrArg (·.entry j) hframe).trans (joined_entry i s e j)
      refine ⟨joined_campaign i s e ▸ hmoves _ (joined_beforeStepEnd i s e), ?_, (hentry e).trans (if_pos rfl),
        fun j hj => (hentry j).trans (if_neg hj), congrArg (·.probes.outcomes) hframe, congrArg (·.probes.scheds) hframe⟩
      rw [hframe]
      rfl
    · rw [hjoin, joinEntry_gone i sel s he]
      obtain ⟨hframe, hcampaign, hcustody⟩ := restartStep_running i s hr hc
      exact ⟨hframe, hcampaign i, fun j _ => hcampaign j, hcustody⟩
  · have hclaimed' : claimed = false := by
      rw [← Bool.not_eq_true, ← hclaimed, how]
      simp
    have hreach : t = reachClaim i sel s := by
      rw [ht hr, hclaimed']
      exact spanTest_watched i sel s ((hmeets sel).2 hm) (mt (hfenced sel).1 hf)
    rw [hreach]
    obtain ⟨hframe, hcampaign, hqueue⟩ := reachClaim_effect i sel s
    exact ⟨hframe, (hcampaign i).trans (if_pos rfl), fun j hj => (hcampaign j).trans (if_neg hj), (hqueue .probe).trans (if_pos rfl),
      fun q hq => (hqueue q).trans (if_neg hq)⟩

end

section
/-! PROOF. Claims (03 R57 R59, 01 R18, 04 R73): the claimant an entry goes to, as the least of an order, and what a claim does. -/

namespace Sys2Proof.Machine

/-! ### The order of claimants (03 R59) -/

/-- Campaign `i` waits for an entry, below its depth. -/
def State.Claims (s : State) (i : Fin 8) : Prop :=
  (s.campaign i).state = .selecting ∧ (s.campaign i).owned < s.params.depth ∧ ∃ sel r, (s.campaign i).step = .claim sel r

theorem claimantOf_claim (s : State) (i : Fin 8) (h : s.Claims i) (sel : Selected) (r : Reach)
    (hstep : (s.campaign i).step = .claim sel r) : claimantOf s i = some (sel, r) := by
  obtain ⟨hstate, howned, -⟩ := h
  simp [claimantOf, hstep, hstate, howned]

theorem claimantOf_isSome_iff (s : State) (i : Fin 8) : (claimantOf s i).isSome = true ↔ s.Claims i := by
  simp only [claimantOf, State.Claims]
  cases (s.campaign i).step <;> simp

/-- URGENT before ROUTINE, then the earlier start time, then the lower slot. -/
def State.ClaimsFirst (s : State) (i j : Fin 8) : Prop :=
  ((s.campaign i).cls = .urgent ∧ (s.campaign j).cls = .routine) ∨
  ((s.campaign i).cls = (s.campaign j).cls ∧
    ((s.campaign i).startTime < (s.campaign j).startTime ∨ ((s.campaign i).startTime = (s.campaign j).startTime ∧ i < j)))

/-- The place of a claimant in that order, as one lexicographic value. -/
def State.claimKey (s : State) (i : Fin 8) : ℕ ×ₗ ℕ ×ₗ Fin 8 :=
  toLex (if (s.campaign i).cls = .urgent then 0 else 1, toLex ((s.campaign i).startTime.toNat, i))

theorem claimKey_lt_iff (s : State) (i j : Fin 8) : s.claimKey i < s.claimKey j ↔ s.ClaimsFirst i j := by
  simp only [State.claimKey, State.ClaimsFirst, Prod.Lex.toLex_lt_toLex, BitVec.lt_def, BitVec.toNat_inj]
  cases (s.campaign i).cls <;> cases (s.campaign j).cls <;> simp

theorem claimKey_injective (s : State) : Function.Injective s.claimKey := by
  intro i j h
  simp only [State.claimKey, EmbeddingLike.apply_eq_iff_eq, Prod.mk.injEq] at h
  exact h.2.2

theorem claimsBefore_iff (s : State) (i j : Fin 8) : claimsBefore s i j = true ↔ s.ClaimsFirst i j := by
  simp only [claimsBefore, State.ClaimsFirst]
  by_cases ht : (s.campaign i).startTime = (s.campaign j).startTime
  · cases (s.campaign i).cls <;> cases (s.campaign j).cls <;> simp [ht]
  · cases (s.campaign i).cls <;> cases (s.campaign j).cls <;> simp [ht]

/-- The best claimant is the least of those that wait. -/
theorem bestClaimant_eq_argmin (s : State) :
    bestClaimant s = ((List.finRange 8).filter (fun i => (claimantOf s i).isSome)).argmin s.claimKey := by
  unfold bestClaimant List.argmin
  rw [List.foldl_filter]
  congr 1
  funext best i
  cases h : claimantOf s i with
  | none => rfl
  | some x =>
    cases best with
    | none => rfl
    | some j =>
      have hfirst := (claimsBefore_iff s i j).trans (claimKey_lt_iff s i j).symm
      simp [List.argAux, hfirst]

theorem bestClaimant_iff (s : State) (i : Fin 8) :
    bestClaimant s = some i ↔ s.Claims i ∧ ∀ j, s.Claims j → j ≠ i → s.ClaimsFirst i j := by
  simp only [bestClaimant_eq_argmin, List.argmin_eq_some_iff, List.mem_filter, List.mem_finRange, true_and, claimantOf_isSome_iff,
    ← claimKey_lt_iff]
  refine and_congr_right fun _ => ⟨fun h j hj hne => ?_, fun h => ⟨fun j hj => ?_, fun j hj hle => ?_⟩⟩
  · exact lt_of_le_of_ne (h.1 j hj) fun he => hne (claimKey_injective s he).symm
  · rcases eq_or_ne j i with rfl | hne
    · exact le_rfl
    · exact (h j hj hne).le
  · rcases eq_or_ne j i with rfl | hne
    · exact le_rfl
    · exact absurd hle (h j hj hne).not_ge

theorem bestClaimant_eq_none (s : State) (h : ∀ i, ¬ s.Claims i) : bestClaimant s = none := by
  cases hb : bestClaimant s with
  | none => rfl
  | some i => exact absurd ((bestClaimant_iff s i).1 hb).1 (h i)

/-! ### The claims of an event (03 R59) -/

theorem claimLoop_rests (n : Nat) (s : State) (h : bestClaimant s = none ∨ freeEntry s = none) : claimLoop n s = s := by
  cases n with
  | zero => rfl
  | succ n =>
    rcases h with h | h
    · simp [claimLoop, h]
    · cases hb : bestClaimant s <;> simp [claimLoop, hb, h]

theorem claimLoop_claims (n : Nat) (s : State) (i : Fin 8) (e : Fin 64) (sel : Selected) (r : Reach)
    (hb : bestClaimant s = some i) (he : freeEntry s = some e) (hstep : (s.campaign i).step = .claim sel r) :
    claimLoop (n + 1) s = claimLoop n (makeClaim i sel r e s) := by
  simp [claimLoop, hb, he, claimantOf_claim s i ((bestClaimant_iff s i).1 hb).1 sel r hstep]

/-! ### The end of a claim's step (03 R53 R57) -/

/-- The end of a step moves the campaign's cursor, and of the rest its state and step alone. -/
theorem endStep_campaign (i : Fin 8) (s : State) : ∃ st step, (endStep i s).campaign i =
    { s.campaign i with cursor := (s.campaign i).nextCursor s.params.circuitCount, state := st, step := step } := by
  obtain ⟨-, hlast, hnext⟩ := endStep_moves (.refl i s)
  rcases Nat.lt_or_ge ((s.campaign i).nextCursor s.params.circuitCount) s.params.circuitCount with h | h
  · by_cases hr : s.run = .running
    · exact ⟨_, _, ((hnext h).2.1 hr).1⟩
    · exact ⟨_, _, ((hnext h).2.2 hr).1⟩
  · exact ⟨_, _, (hlast h).1⟩

theorem endStep_queue (i : Fin 8) (s : State) (r : Requester) (hr : r ≠ .campaign) : (endStep i s).queue r = s.queue r := by
  obtain ⟨-, -, -, -, hqueue, -⟩ := endStep_cases i s
  exact hqueue r hr

theorem endStep_probes (i : Fin 8) (s : State) : (endStep i s).probes = s.probes := congrArg (·.probes) (endStep_frame i s)

theorem endStep_mapEntry (i : Fin 8) (s : State) (c : Nat) : (endStep i s).mapEntry c = s.mapEntry c :=
  congrArg (fun m => sparseGet ({} : MapEntry) m c) (endStep_map i s)

/-! ### Launch queues and the Outcome List (04 R75 R82) -/

theorem enqueue_entry (e j : Fin 64) (k : Fin 4) (s : State) : (enqueue e k s).entry j =
    if j = e then { s.entry e with state := .queued, link := k, timer := none } else s.entry j :=
  modEntry_entry e j (fun x => { x with state := .queued, link := k, timer := none }) s

theorem setQueueOf_queueOf_other (q : LaunchSched) (c : Class) (l : List (Fin 64)) :
    (q.setQueueOf c l).queueOf c.other = q.queueOf c.other := by
  cases c <;> rfl

/-- An entry joins the tail of its class's queue on a link, and no other queue. -/
theorem enqueue_launchSched (e : Fin 64) (k j : Fin 4) (s : State) : (enqueue e k s).launchSched j =
    if j = k then (s.launchSched k).setQueueOf (s.entry e).cls ((s.launchSched k).queueOf (s.entry e).cls ++ [e])
    else s.launchSched j :=
  modSched_launchSched k j (fun q => q.setQueueOf (s.entry e).cls (q.queueOf (s.entry e).cls ++ [e])) _

theorem conclude_entry (e j : Fin 64) (o : Conclusion) (s : State) : (conclude e o s).entry j =
    if j = e then { s.entry e with state := .concluded, timer := none, outcome := some o } else s.entry j :=
  modEntry_entry e j (fun x => { x with state := .concluded, timer := none, outcome := some o }) s

theorem conclude_outcomes (e : Fin 64) (o : Conclusion) (s : State) :
    (conclude e o s).probes.outcomes = s.probes.outcomes ++ [e] := rfl

/-! ### The claim taken (04 R73, 01 R18) -/

/-- A circuit's map entry changed by a claim or a leave: an action in flight on the circuit is noted as disturbed (01 R11). -/
theorem disturb_setMapEntry_move (c : Nat) (m : MapEntry) (s : State) :
    CustodyMove c s (disturb c (setMapEntry c m s)) m
      (s.custody.action.map (fun a => { a with disturbed := a.disturbed || decide (a.req.circuit = c) })) [] := by
  rw [disturb_eq]
  have h := (setAction_move c (s.custody.action.map fun a => { a with disturbed := a.disturbed || decide (a.req.circuit = c) })
    (setMapEntry c m s)).after_setMapEntry
  rwa [setMapEntry_mapEntry_same] at h

section Allocate

variable (i : Fin 8) (sel : Selected) (r : Reach) (e : Fin 64) (s : State)

/-- The entry filled and the circuit CLAIMED in the map, its engine word handed over. -/
def circuitClaimed : State :=
  let t := modEntry e (fun x => claimedEntry x sel r (s.campaign i).cls i) s
  engineWordWrite sel.circuit .plain (disturb sel.circuit
    (setMapEntry sel.circuit { t.mapEntry sel.circuit with engine := .claimed, release := .none } t))

/-- The same with the claim counted: what `allocate` has done when it chooses the link. -/
def claimTaken : State :=
  modCampaign i (fun c => { c with owned := c.owned + 1, counts := { c.counts with selected := c.counts.selected + 1 } })
    (circuitClaimed i sel r e s)

theorem circuitClaimed_move : CustodyMove sel.circuit (modEntry e (fun x => claimedEntry x sel r (s.campaign i).cls i) s)
    (circuitClaimed i sel r e s) { s.mapEntry sel.circuit with engine := .claimed, release := .none }
    (s.custody.action.map (fun a => { a with disturbed := a.disturbed || decide (a.req.circuit = sel.circuit) }))
    [⟨recordAddr s sel.circuit 0x0C,
      some (engineWord .claimed (s.mapEntry sel.circuit).lastVerdict (s.mapEntry sel.circuit).lastCampaign), .plain⟩] :=
  engineWordWrite_move _ _ _ _ _ (disturb_setMapEntry_move _ _ _)

theorem claimTaken_frame : claimTaken i sel r e s =
    { s with
      ctrl := (claimTaken i sel r e s).ctrl, custody := (claimTaken i sel r e s).custody, master := (claimTaken i sel r e s).master
      probes := { s.probes with entries := (claimTaken i sel r e s).probes.entries } } := by
  unfold claimTaken
  rw [(circuitClaimed_move i sel r e s).frame]
  rfl

theorem claimTaken_campaign : (claimTaken i sel r e s).campaign i =
    { s.campaign i with
      owned := (s.campaign i).owned + 1
      counts := { (s.campaign i).counts with selected := (s.campaign i).counts.selected + 1 } } := by
  have h : (circuitClaimed i sel r e s).campaign i = s.campaign i := congrArg (·.campaign i) (circuitClaimed_move i sel r e s).frame
  rw [claimTaken, modCampaign_campaign, if_pos rfl, h]

theorem claimTaken_entry (j : Fin 64) : (claimTaken i sel r e s).entry j =
    if j = e then claimedEntry (s.entry e) sel r (s.campaign i).cls i else s.entry j :=
  (congrArg (·.entry j) (circuitClaimed_move i sel r e s).frame).trans
    (modEntry_entry e j (fun x => claimedEntry x sel r (s.campaign i).cls i) s)

theorem claimTaken_chooseLink : chooseLink (claimTaken i sel r e s) r = chooseLink s r := by
  rw [claimTaken_frame]
  rfl

theorem allocate_linked (k : Fin 4) (h : chooseLink s r = some k) :
    allocate i sel r e s = enqueue e k (claimTaken i sel r e s) := by
  rw [← claimTaken_chooseLink i sel r e s] at h
  show (match chooseLink (claimTaken i sel r e s) r with | some k => _ | none => _) = _
  rw [h]
  rfl

theorem allocate_unlinked (h : chooseLink s r = none) :
    allocate i sel r e s = conclude e .notTested (claimTaken i sel r e s) := by
  rw [← claimTaken_chooseLink i sel r e s] at h
  show (match chooseLink (claimTaken i sel r e s) r with | some k => _ | none => _) = _
  rw [h]
  rfl

/-- The link chosen or the entry concluded: the Probe Table alone is reached. -/
theorem allocate_probes :
    allocate i sel r e s = { claimTaken i sel r e s with probes := (allocate i sel r e s).probes } := by
  cases h : chooseLink s r with
  | some k => rw [allocate_linked i sel r e s k h]; rfl
  | none => rw [allocate_unlinked i sel r e s h]; rfl

theorem allocate_mapEntry (d : Nat) : (allocate i sel r e s).mapEntry d =
    if d = sel.circuit then { s.mapEntry sel.circuit with engine := .claimed, release := .none } else s.mapEntry d := by
  have h : (allocate i sel r e s).mapEntry d = (circuitClaimed i sel r e s).mapEntry d :=
    congrArg (·.mapEntry d) (allocate_probes i sel r e s)
  rw [h]
  split
  · next hd => exact hd ▸ (circuitClaimed_move i sel r e s).entry
  · next hd => exact (circuitClaimed_move i sel r e s).others d hd

theorem allocate_queue : (allocate i sel r e s).queue .custody = s.queue .custody ++
    [⟨recordAddr s sel.circuit 0x0C,
      some (engineWord .claimed (s.mapEntry sel.circuit).lastVerdict (s.mapEntry sel.circuit).lastCampaign), .plain⟩] :=
  (congrArg (·.queue .custody) (allocate_probes i sel r e s)).trans (circuitClaimed_move i sel r e s).queue

theorem allocate_campaign : (allocate i sel r e s).campaign i =
    { s.campaign i with
      owned := (s.campaign i).owned + 1
      counts := { (s.campaign i).counts with selected := (s.campaign i).counts.selected + 1 } } :=
  (congrArg (·.campaign i) (allocate_probes i sel r e s)).trans (claimTaken_campaign i sel r e s)

theorem allocate_params : (allocate i sel r e s).params = s.params :=
  (congrArg (·.params) (allocate_probes i sel r e s)).trans (congrArg (·.params) (claimTaken_frame i sel r e s))

theorem allocate_entry_other (j : Fin 64) (hj : j ≠ e) : (allocate i sel r e s).entry j = s.entry j := by
  have h := claimTaken_entry i sel r e s j
  rw [if_neg hj] at h
  cases hk : chooseLink s r with
  | some k => rw [allocate_linked i sel r e s k hk, enqueue_entry, if_neg hj, h]
  | none => rw [allocate_unlinked i sel r e s hk, conclude_entry, if_neg hj, h]

/-- On a link chosen the entry is QUEUED, at the tail of its class's queue. -/
theorem allocate_linked_effect (k : Fin 4) (h : chooseLink s r = some k) :
    let t := allocate i sel r e s
    t.entry e = { claimedEntry (s.entry e) sel r (s.campaign i).cls i with link := k } ∧ t.probes.outcomes = s.probes.outcomes ∧
    (∀ j, t.launchSched j = if j = k
      then (s.launchSched k).setQueueOf (s.campaign i).cls ((s.launchSched k).queueOf (s.campaign i).cls ++ [e])
      else s.launchSched j) := by
  intro t
  have hu : (claimTaken i sel r e s).entry e = _ := (claimTaken_entry i sel r e s e).trans (if_pos rfl)
  have hcls : ((claimTaken i sel r e s).entry e).cls = (s.campaign i).cls := congrArg (·.cls) hu
  have hframe := claimTaken_frame i sel r e s
  have hsched : ∀ j, (claimTaken i sel r e s).launchSched j = s.launchSched j := fun j => congrArg (·.launchSched j) hframe
  simp only [t, allocate_linked i sel r e s k h]
  refine ⟨?_, congrArg (·.probes.outcomes) hframe, fun j => ?_⟩
  · rw [enqueue_entry, if_pos rfl, hu]
    rfl
  · simp only [enqueue_launchSched, hcls, hsched]

/-- Under BIND with the primary not UP the entry is CONCLUDED with NOT_TESTED. -/
theorem allocate_unlinked_effect (h : chooseLink s r = none) :
    let t := allocate i sel r e s
    t.entry e = { claimedEntry (s.entry e) sel r (s.campaign i).cls i with state := .concluded, outcome := some .notTested } ∧
    t.probes.outcomes = s.probes.outcomes ++ [e] ∧ t.probes.scheds = s.probes.scheds := by
  intro t
  have hu : (claimTaken i sel r e s).entry e = _ := (claimTaken_entry i sel r e s e).trans (if_pos rfl)
  have hframe := claimTaken_frame i sel r e s
  simp only [t, allocate_unlinked i sel r e s h]
  refine ⟨?_, ?_, congrArg (·.probes.scheds) hframe⟩
  · rw [conclude_entry, if_pos rfl, hu]
    rfl
  · rw [conclude_outcomes, hframe]

end Allocate

/-! ### The decision of a claim (03 R57) -/

section Claim

variable (i : Fin 8) (sel : Selected) (r : Reach) (e : Fin 64) (s : State)

theorem makeClaim_fenced (h : s.anyFenced sel.spans = true) :
    makeClaim i sel r e s = endStep i (modCounts i Counts.addSelectedDeferred s) := if_pos h

theorem makeClaim_watched (h : ¬ s.anyFenced sel.spans = true) (hm : (s.mapEntry sel.circuit).engine = .watched) :
    makeClaim i sel r e s = endStep i (allocate i sel r e s) := by
  simp [makeClaim, h, hm]

theorem makeClaim_claimed (h : ¬ s.anyFenced sel.spans = true) (hm : (s.mapEntry sel.circuit).engine = .claimed) :
    makeClaim i sel r e s = joinEntry i sel s := by
  simp [makeClaim, h, hm]

theorem makeClaim_left (h : ¬ s.anyFenced sel.spans = true) (hw : (s.mapEntry sel.circuit).engine ≠ .watched)
    (hc : (s.mapEntry sel.circuit).engine ≠ .claimed) : makeClaim i sel r e s = endStep i s := by
  simp only [makeClaim, h]
  cases hm : (s.mapEntry sel.circuit).engine with
  | watched => exact absurd hm hw
  | claimed => exact absurd hm hc
  | _ => rfl

/-- A claim that takes no entry: the step ends, and a fenced one is counted. -/
theorem makeClaim_none (h : s.anyFenced sel.spans = true ∨
      ((s.mapEntry sel.circuit).engine ≠ .watched ∧ (s.mapEntry sel.circuit).engine ≠ .claimed)) :
    ∃ u, makeClaim i sel r e s = endStep i u ∧ BeforeStepEnd i s u ∧ u.probes = s.probes ∧
      u.campaign i = { s.campaign i with counts := if s.anyFenced sel.spans
        then { (s.campaign i).counts with
          selected := (s.campaign i).counts.selected + 1, deferred := (s.campaign i).counts.deferred + 1 }
        else (s.campaign i).counts } := by
  by_cases hf : s.anyFenced sel.spans = true
  · refine ⟨_, makeClaim_fenced i sel r e s hf, modCounts_beforeStepEnd i _ s, rfl, ?_⟩
    rw [if_pos hf]
    exact (modCampaign_campaign i i _ s).trans (if_pos rfl)
  · obtain ⟨hw, hc⟩ := h.resolve_left hf
    refine ⟨s, makeClaim_left i sel r e s hf hw hc, .refl i s, rfl, ?_⟩
    rw [if_neg hf]

end Claim

end Sys2Proof.Machine

open Sys2Proof Sys2Proof.Machine

/-- Settles O32: a claim is a step's end after a refusal or after `claimTaken`, and the claimant served is the least of an order. -/
theorem claimsTakeEntriesInOrder : Obligations.ClaimsTakeEntriesInOrder := by
  refine ⟨fun i sel r e s => ?_, freeEntry_iff, fun s => ?_⟩
  · intro c m x t fenced next filled
    have hnext : next = c.nextCursor s.params.circuitCount := by
      simp only [next, Campaign.nextCursor]
      cases c.spanSet <;> rfl
    have hfenced : s.anyFenced sel.spans = true ↔ fenced := anyFenced_iff s sel.spans
    refine ⟨fun h => ?_, fun hf hm => ?_, fun hf hm => makeClaim_claimed i sel r e s (mt hfenced.1 hf) hm⟩
    · obtain ⟨u, ht, hu, hprobes, hcampaign⟩ := makeClaim_none i sel r e s (h.imp_left hfenced.2)
      have hparams : u.params = s.params := by rw [hu.frame]
      obtain ⟨st, step, hend⟩ := endStep_campaign i u
      rw [hparams, hu.next, ← hnext, hcampaign] at hend
      have hmap : u.custody.map = s.custody.map := by rw [hu.frame]
      rw [show t = endStep i u from ht]
      refine ⟨(endStep_probes i u).trans hprobes, (endStep_map i u).trans hmap,
        (endStep_queue i u .custody (by decide)).trans (hu.queue _), ?_, ?_, ?_⟩ <;> rw [hend]
    · have ht : t = endStep i (allocate i sel r e s) := makeClaim_watched i sel r e s (mt hfenced.1 hf) hm
      have hprobes : t.probes = (allocate i sel r e s).probes := ht ▸ endStep_probes i _
      have hentry : ∀ j, t.entry j = (allocate i sel r e s).entry j := fun j => congrArg (fun p : Probes => p.entries.get j) hprobes
      have hsched : ∀ k, t.launchSched k = (allocate i sel r e s).launchSched k :=
        fun k => congrArg (fun p : Probes => p.scheds.get k) hprobes
      have hmap : ∀ d, t.mapEntry d = _ := fun d => ht ▸ (endStep_mapEntry i _ d).trans (allocate_mapEntry i sel r e s d)
      have hqueue : t.queue .custody = _ := ht ▸ (endStep_queue i _ .custody (by decide)).trans (allocate_queue i sel r e s)
      obtain ⟨st, step, hend⟩ := endStep_campaign i (allocate i sel r e s)
      rw [allocate_params, allocate_campaign, ← ht] at hend
      refine ⟨fun d hd => (hmap d).trans (if_neg hd), (hmap _).trans (if_pos rfl), hqueue, ?_, ?_, ?_,
        fun j hj => (hentry j).trans (allocate_entry_other i sel r e s j hj), fun k hk => ?_, fun hk => ?_⟩
      · rw [hend, hnext]
        rfl
      · rw [hend]
      · rw [hend]
      · obtain ⟨he, houtcomes, hscheds⟩ := allocate_linked_effect i sel r e s k hk
        have hsame : t.launchSched k = _ := (hsched k).trans ((hscheds k).trans (if_pos rfl))
        refine ⟨(hentry e).trans he, (congrArg (·.outcomes) hprobes).trans houtcomes,
          fun l hl => (hsched l).trans ((hscheds l).trans (if_neg hl)), ?_, ?_⟩
        · rw [hsame]
          exact setQueueOf_queueOf _ _ _
        · rw [hsame]
          exact setQueueOf_queueOf_other _ _ _
      · obtain ⟨he, houtcomes, hscheds⟩ := allocate_unlinked_effect i sel r e s hk
        exact ⟨(hentry e).trans he, (congrArg (·.outcomes) hprobes).trans houtcomes, (congrArg (·.scheds) hprobes).trans hscheds⟩
  · intro waits first
    refine ⟨bestClaimant_iff s, fun h => ?_, fun i e sel r hr hb he hstep => ?_⟩
    · by_cases hr : s.run = .running
      · have hnone : bestClaimant s = none ∨ freeEntry s = none :=
          (h.resolve_left (not_not.2 hr)).symm.imp_left (bestClaimant_eq_none s)
        exact (if_pos hr).trans (claimLoop_rests 8 s hnone)
      · exact if_neg hr
    · exact (if_pos hr).trans (claimLoop_claims 7 s i e sel r hb he hstep)

end

section
/-! PROOF. The SUMMARY of a drained campaign and its end (03 R65 to R67), and the grant of a slot to a waiting window (02 R38, 03 R47 to
R50). -/

namespace Sys2Proof.Machine

/-! ### The bits of the words (11 R182 R184) -/

/-- A field placed above the bits of a word adds to it. -/
theorem or_field_toNat {x : Word} {n : Nat} (hx : x.toNat = n) (v width lo : Nat) (hn : n < 2 ^ lo) (hv : v < 2 ^ width)
    (hlo : width + lo ≤ 32) : (x ||| field v width lo).toNat = n + v * 2 ^ lo := by
  subst hx
  rw [BitVec.toNat_or, field_toNat v width lo hv hlo, Nat.or_comm, Nat.mul_comm, ← Nat.two_pow_add_eq_or_of_lt hn, Nat.add_comm]

/-- Two 16-bit counts in one word. -/
theorem countPair_toNat (a b : Nat) (ha : a < 65536) (hb : b < 65536) :
    (field a 16 0 ||| field b 16 16).toNat = a + 65536 * b := by
  rw [or_field_toNat (field_toNat a 16 0 ha (by decide)) b 16 16 (by omega) hb (by decide)]
  omega

theorem Origin.kindCode_lt (o : Origin) : o.kindCode < 4 := by cases o <;> simp [Origin.kindCode]

theorem CampaignState.code_lt (st : CampaignState) : st.code < 4 := by cases st <;> decide

theorem Class.code_eq (c : Class) : c.code = if c = .urgent then 1 else 0 := by cases c <;> rfl

/-- The word of a slot in use is its five fields (03 R48). -/
theorem slotWord_toNat (c : Campaign) (hs : c.state ≠ .free) (hid : c.id < 256) (hindex : c.origin.index < 64)
    (hcursor : c.cursor < 8192) : (slotWord c).toNat =
      c.id + 256 * c.state.code + 1024 * c.origin.kindCode + 4096 * c.origin.index + 262144 * c.cursor := by
  have hstate := c.state.code_lt
  have hkind := c.origin.kindCode_lt
  have h0 := field_toNat c.id 8 0 hid (by decide)
  have h1 := or_field_toNat h0 c.state.code 2 8 (by omega) hstate (by decide)
  have h2 := or_field_toNat h1 c.origin.kindCode 2 10 (by omega) hkind (by decide)
  have h3 := or_field_toNat h2 c.origin.index 6 12 (by omega) hindex (by decide)
  have h4 := or_field_toNat h3 c.cursor 13 18 (by omega) hcursor (by decide)
  rw [slotWord, if_neg hs, h4]
  omega

/-- The first word of a SUMMARY's body is its five fields (03 R65). -/
theorem summaryHead_toNat (c : Campaign) (aborted : Bool) (hid : c.id < 256) (hindex : c.origin.index < 256) :
    (field c.id 8 0 ||| field c.origin.kindCode 8 8 ||| field c.origin.index 8 16 ||| field c.cls.code 1 24 |||
      field aborted.toNat 1 25).toNat =
      c.id + 256 * c.origin.kindCode + 65536 * c.origin.index + 16777216 * c.cls.code + 33554432 * aborted.toNat := by
  have hkind := c.origin.kindCode_lt
  have hcls : c.cls.code < 2 := by cases c.cls <;> decide
  have haborted := aborted.toNat_lt
  have h0 := field_toNat c.id 8 0 hid (by decide)
  have h1 := or_field_toNat h0 c.origin.kindCode 8 8 (by omega) (by omega) (by decide)
  have h2 := or_field_toNat h1 c.origin.index 8 16 (by omega) hindex (by decide)
  have h3 := or_field_toNat h2 c.cls.code 1 24 (by omega) hcls (by decide)
  have h4 := or_field_toNat h3 aborted.toNat 1 25 (by omega) haborted (by decide)
  rw [h4]
  omega

/-- The body of a SUMMARY whose counts sum to what was selected: no count passes its 16 bits (03 R60). -/
theorem summaryEntry_body (c : Campaign) (endTime : Word) (hid : c.id < 256) (hindex : c.origin.index < 256) (hcursor : c.cursor < 65536)
    (hselected : c.counts.selected < 65536) (hclosed : c.counts.closed = c.counts.selected) (hjoined : c.counts.joined < 65536) :
    (summaryEntry c endTime).body.map (fun w => w.toNat) =
      [c.id + 256 * c.origin.kindCode + 65536 * c.origin.index + 16777216 * c.cls.code +
          33554432 * (decide (c.state = .aborting)).toNat,
        c.cursor, c.startTime.toNat, endTime.toNat, c.counts.selected + 65536 * c.counts.joined,
        c.counts.continuous + 65536 * c.counts.degraded, c.counts.misrouted + 65536 * c.counts.broken,
        c.counts.incomplete + 65536 * c.counts.noEcho, c.counts.notTested + 65536 * c.counts.edited,
        c.counts.routeInvalid + 65536 * c.counts.deferred, c.counts.abandoned, 0, 0, 0, 0, 0] := by
  simp only [Counts.closed] at hclosed
  have hc := field_toNat c.cursor 16 0 hcursor (by decide)
  have ha := field_toNat c.counts.abandoned 16 0 (by omega) (by decide)
  rw [Nat.pow_zero, Nat.mul_one] at hc ha
  simp only [summaryEntry, List.map_cons, List.map_nil, summaryHead_toNat c _ hid hindex, hc, ha]
  rw [countPair_toNat _ _ hselected hjoined, countPair_toNat _ _ (by omega) (by omega), countPair_toNat _ _ (by omega) (by omega),
    countPair_toNat _ _ (by omega) (by omega), countPair_toNat _ _ (by omega) (by omega), countPair_toNat _ _ (by omega) (by omega)]
  rfl

/-! ### The hand-over of a SUMMARY (03 R65 R66) -/

theorem Campaign.complete_iff (c : Campaign) :
    c.complete = true ↔ (c.state = .draining ∨ c.state = .aborting) ∧ c.owned = 0 ∧ c.joinedOut = 0 := by
  simp [Campaign.complete, and_assoc]

theorem serveSummaries_hands (s : State) (i : Fin 8) (hr : s.run = .running) (ho : s.ctrl.offer = none)
    (hp : pick (fun i => (s.campaign i).complete) (List.finRange 8) = some i) : serveSummaries s = { s with
      ctrl := { s.ctrl with offer := some i }
      journal := { s.journal with campOffer := some (summaryEntry (s.campaign i) s.clock.netTime) } } := by
  simp only [serveSummaries, hr, ho, hp, and_self, if_true]
  rfl

theorem serveSummaries_rests (s : State)
    (h : s.run ≠ .running ∨ s.ctrl.offer ≠ none ∨ ∀ i, ¬ (s.campaign i).complete = true) : serveSummaries s = s := by
  unfold serveSummaries
  split
  · next hc =>
    have hnone := (h.resolve_left (not_not.2 hc.1)).resolve_left (not_not.2 hc.2)
    cases hp : pick (fun i => (s.campaign i).complete) (List.finRange 8) with
    | none => rfl
    | some i => exact absurd (pick_eq_some _ _ i hp).1 (hnone i)
  · rfl

/-! ### The end of a campaign (03 R67, 02 R39) -/

theorem slotWordWrite_queue (i : Fin 8) (s : State) (q : Requester) : (slotWordWrite i s).queue q =
    if q = .campaign then
      s.queue .campaign ++ [⟨addrOf s.params.controlBlock (0x170 + 4 * i.val), some (slotWord (s.campaign i)), .plain⟩]
    else s.queue q := handWrite_queue_of _ q _ _ _ _

theorem finishWindow_frame (o : Origin) (aborted : Bool) (s : State) :
    finishWindow o aborted s = { s with sched := (finishWindow o aborted s).sched } := by
  cases o with
  | window w =>
    simp only [finishWindow]
    rw [changeWindow_frame]
  | _ => rfl

/-- The slot FREE, its word handed over, and no SUMMARY on offer: the end of a campaign but for its window and the event bit. -/
def slotFreed (i : Fin 8) (s : State) : State := slotWordWrite i (modCampaign i (fun _ => {}) (setOffer none s))

theorem slotFreed_campaign (i j : Fin 8) (s : State) : (slotFreed i s).campaign j = if j = i then {} else s.campaign j :=
  modCampaign_campaign i j (fun _ => {}) _

theorem slotFreed_queue (i : Fin 8) (s : State) : (slotFreed i s).queue .campaign = s.queue .campaign ++
    [⟨addrOf s.params.controlBlock (0x170 + 4 * i.val), some 0, .plain⟩] := by
  have hfree : (modCampaign i (fun _ => {}) (setOffer none s)).campaign i = {} := (modCampaign_campaign i i _ _).trans (if_pos rfl)
  rw [slotFreed, slotWordWrite_queue, if_pos rfl, hfree]
  rfl

theorem summaryWritten_eq (i : Fin 8) (s : State) : summaryWritten i s =
    setEvent .campaignDone (finishWindow (s.campaign i).origin (decide ((s.campaign i).state = .aborting)) (slotFreed i s)) := rfl

/-! ### The choice of an id (03 R47) -/

theorem chooseId_congr (s u : State) (h : u.ctrl.slots = s.ctrl.slots) (k n : Nat) : chooseId u k n = chooseId s k n := by
  have huse : ∀ n, idInUse u n = idInUse s n := fun n => by
    unfold idInUse State.campaign
    rw [h]
  induction k generalizing n with
  | zero => rfl
  | succ k ih => simp only [chooseId, huse, ih]

/-! ### A creation (03 R49) -/

/-- A campaign as its slot is filled. -/
def freshCampaign (s : State) (id : Nat) (origin : Origin) (cls : Class) (set : SpanSet) : Campaign :=
  { id := id, state := .selecting, origin := origin, cls := cls, spanSet := set, startTime := s.clock.netTime }

/-- A campaign as its creation leaves it: without a span it drains at once, else it waits for its first custody action. -/
def createdCampaign (s : State) (id : Nat) (origin : Origin) (cls : Class) (set : SpanSet) : Campaign :=
  if set = .list [] then { freshCampaign s id origin cls set with state := .draining, cursor := s.params.circuitCount }
  else { freshCampaign s id origin cls set with step := .custody }

theorem createdCampaign_spans (s : State) (id : Nat) (origin : Origin) (cls : Class) (spans : List Nat) :
    createdCampaign s id origin cls (.list spans) =
      { id := id, origin := origin, cls := cls, spanSet := .list spans, startTime := s.clock.netTime
        state := if spans = [] then .draining else .selecting
        cursor := if spans = [] then s.params.circuitCount else 0
        step := if spans = [] then .idle else .custody } := by
  by_cases h : spans = [] <;> simp [createdCampaign, freshCampaign, h]

/-- What a creation in slot `i` leaves: `u` with the new campaign, its slot word handed over, and its first custody request. -/
structure Creation (i : Fin 8) (c : Campaign) (s u : State) : Prop where
  frame : u = { s with ctrl := u.ctrl, custody := u.custody, master := u.master }
  campaign : u.campaign i = c
  others : ∀ j, j ≠ i → u.campaign j = s.campaign j
  nextId : u.ctrl.nextId = idAfter c.id
  queue : u.queue .campaign = s.queue .campaign ++
    [⟨addrOf s.params.controlBlock (0x170 + 4 * i.val), some (slotWord c), .plain⟩]
  queues : ∀ q, q ≠ .campaign → u.queue q = s.queue q
  custody : u.custody = { s.custody with
    queue := s.custody.queue ++ (if c.step = .custody then [(s.eventNo, .select i c.id c.stepCircuit true)] else []) }

theorem slotFilled_creation (i : Fin 8) (c : Campaign) (s : State) (hc : c.step = .idle) : Creation i c s
    (slotWordWrite i (modCampaign i (fun _ => c) { s with ctrl := { s.ctrl with nextId := idAfter c.id } })) := by
  have hfilled : ∀ j, (modCampaign i (fun _ => c) { s with ctrl := { s.ctrl with nextId := idAfter c.id } }).campaign j =
      if j = i then c else s.campaign j := fun j => modCampaign_campaign i j (fun _ => c) _
  refine ⟨rfl, (hfilled i).trans (if_pos rfl), fun j hj => (hfilled j).trans (if_neg hj), rfl, ?_, fun q hq => ?_, ?_⟩
  · rw [slotWordWrite_queue, if_pos rfl, hfilled, if_pos rfl]
    rfl
  · rw [slotWordWrite_queue, if_neg hq]
    rfl
  · simp [slotWordWrite, statusWrite, hc]

/-- A slot filled goes on to its first selection step. -/
theorem Creation.begin {i : Fin 8} {c : Campaign} {s u : State} (h : Creation i c s u) (hc : c.step = .idle) :
    Creation i { c with step := .custody } s (beginStep i u) := by
  have hcampaign : ∀ j, (beginStep i u).campaign j = if j = i then { u.campaign i with step := .custody } else u.campaign j :=
    setStep_campaign i u .custody
  refine ⟨?_, ?_, fun j hj => ?_, h.nextId, h.queue, h.queues, ?_⟩
  · rw [h.frame]
    rfl
  · rw [hcampaign, if_pos rfl, h.campaign]
  · rw [hcampaign, if_neg hj, h.others j hj]
  · have hevent : u.eventNo = s.eventNo := congrArg (·.eventNo) h.frame
    have hcustody : u.custody = s.custody := by simpa [hc] using h.custody
    simp [beginStep, askCustody, hevent, hcustody, h.campaign, Campaign.stepCircuit]

theorem createCampaign_id (i : Fin 8) (origin : Origin) (cls : Class) (set : SpanSet) (s : State) :
    (createCampaign i origin cls set s).2 = chooseId s 8 s.ctrl.nextId := by
  unfold createCampaign
  simp only []
  split <;> rfl

theorem createCampaign_creation (i : Fin 8) (origin : Origin) (cls : Class) (set : SpanSet) (s : State) :
    Creation i (createdCampaign s (chooseId s 8 s.ctrl.nextId) origin cls set) s (createCampaign i origin cls set s).1 := by
  by_cases h : set = .list []
  · simp only [createCampaign, createdCampaign, if_pos h]
    exact slotFilled_creation i _ s rfl
  · simp only [createCampaign, createdCampaign, if_neg h]
    exact (slotFilled_creation i (freshCampaign s _ origin cls set) s rfl).begin rfl

/-! ### A grant (02 R38, 03 R50) -/

/-- The head of the Slot Waiting List has left it. -/
def headLeft (s : State) : State := { s with sched := { s.sched with slotWait := s.sched.slotWait.tail } }

theorem grant_eq (i : Fin 8) (w : Fin 64) (s : State) : grant i w s =
    changeWindow w (fun x => { x with phase := .verifying, campaign := chooseId s 8 s.ctrl.nextId })
      (createCampaign i (.window w) (s.window w).cls (.list (s.window w).spans) (headLeft s)).1 := by
  rw [← chooseId_congr s (headLeft s) rfl]
  show changeWindow w (fun x => { x with phase := .verifying, campaign := (createCampaign _ _ _ _ (headLeft s)).2 }) _ = _
  rw [createCampaign_id]
  rfl

theorem grantLoop_rests (n : Nat) (s : State) (h : s.sched.slotWait = [] ∨ freeSlot s = none) : grantLoop n s = s := by
  cases n with
  | zero => rfl
  | succ n =>
    rcases h with h | h
    · simp [grantLoop, h]
    · cases hw : s.sched.slotWait <;> simp [grantLoop, hw, h]

theorem grantLoop_grants (n : Nat) (s : State) (w : Fin 64) (rest : List (Fin 64)) (i : Fin 8) (hw : s.sched.slotWait = w :: rest)
    (hi : freeSlot s = some i) : grantLoop (n + 1) s = grantLoop n (grant i w s) := by
  simp [grantLoop, hw, hi]

/-- What a grant leaves: the head of the list has left it, its window is VERIFYING, and the campaign is created. -/
theorem grant_effect (i : Fin 8) (w : Fin 64) (s : State) :
    let x := s.window w
    let id := chooseId s 8 s.ctrl.nextId
    let t := grant i w s
    (∃ u, Creation i (createdCampaign s id (.window w) x.cls (.list x.spans)) (headLeft s) u ∧
      t = { u with sched := t.sched }) ∧
    t.sched.slotWait = s.sched.slotWait.tail ∧ w ∈ t.sched.phaseDue ∧
    (∀ v, t.window v = if v = w then { x with phase := .verifying, campaign := id } else s.window v) := by
  intro x id t
  let u := (createCampaign i (.window w) x.cls (.list x.spans) (headLeft s)).1
  have hu : Creation i (createdCampaign s id (.window w) x.cls (.list x.spans)) (headLeft s) u := by
    have h := createCampaign_creation i (.window w) x.cls (.list x.spans) (headLeft s)
    rwa [chooseId_congr s (headLeft s) rfl] at h
  have hsched : u.sched = (headLeft s).sched := congrArg (·.sched) hu.frame
  have hwindow : ∀ v, u.window v = s.window v := fun v => congrArg (·.windows.get v) hsched
  have ht : t = changeWindow w (fun x => { x with phase := .verifying, campaign := id }) u := grant_eq i w s
  refine ⟨⟨u, hu, ?_⟩, ?_, ?_, fun v => ?_⟩
  · rw [ht, changeWindow_eq]
  · rw [ht, changeWindow_eq, ← show (headLeft s).sched.slotWait = s.sched.slotWait.tail from rfl, ← hsched]
  · rw [ht, changeWindow_phaseDue, mem_dueWith]
    exact .inl rfl
  · rw [ht, changeWindow_window, hwindow, hwindow]

end Sys2Proof.Machine

open Sys2Proof Sys2Proof.Machine

/-- Settles O34: each word is the sum of its fields, an end frees the slot and finishes the window, and a grant is a `Creation` between the
head of the list leaving it and the window's change. -/
theorem campaignsDrainSummariseAndAreGranted : Obligations.CampaignsDrainSummariseAndAreGranted := by
  refine ⟨fun s => ?_, fun c endTime hid hindex hcursor hselected hclosed hjoined => ?_, fun i s => ?_, fun s => ?_, fun c => ?_⟩
  · intro complete
    have hcomplete : ∀ i, (s.campaign i).complete = true ↔ complete i := fun i => (s.campaign i).complete_iff
    refine ⟨fun h => serveSummaries_rests s ?_, fun i hr ho hi hlow => serveSummaries_hands s i hr ho ?_⟩
    · exact h.imp_right (Or.imp_right fun hn i => mt (hcomplete i).1 (hn i))
    · exact (pick_finRange_iff _ i).2 ⟨(hcomplete i).2 hi, fun j hj => Bool.eq_false_iff.2 (mt (hcomplete j).1 (hlow j hj))⟩
  · refine ⟨rfl, rfl, ?_⟩
    rw [summaryEntry_body c endTime hid hindex hcursor hselected hclosed hjoined, Class.code_eq]
    by_cases ha : c.state = .aborting <;> simp [ha]
  · intro c t
    let v := slotFreed i s
    let u := finishWindow c.origin (decide (c.state = .aborting)) v
    have hu : u = { v with sched := u.sched } := finishWindow_frame _ _ v
    have ht : t = setEvent .campaignDone u := summaryWritten_eq i s
    have hcampaign : ∀ j, t.campaign j = if j = i then {} else s.campaign j := fun j =>
      ht ▸ (congrArg (·.campaign j) hu).trans (slotFreed_campaign i j s)
    refine ⟨?_, ?_, (hcampaign i).trans (if_pos rfl), ?_, fun j hj => (hcampaign j).trans (if_neg hj), ?_, fun w hw => ?_, fun hw => ?_⟩
    · rw [ht, hu]
      rfl
    · rw [ht]
      simp
    · rw [ht]
      exact congrArg (·.ctrl.offer) hu
    · rw [ht]
      exact (congrArg (·.queue .campaign) hu).trans (slotFreed_queue i s)
    · have hchange : u = changeWindow w
          (fun x => { x with phase := .finished, reason := if decide (c.state = .aborting) then .aborted else .verified }) v := by
        simp only [u, hw]
        rfl
      have hwindow : ∀ y, t.window y = u.window y := fun y => congrArg (·.window y) ht
      have hsched : t.sched = u.sched := congrArg (·.sched) ht
      refine ⟨?_, fun y hy => ?_, ?_⟩
      · rw [hsched, hchange, changeWindow_phaseDue, mem_dueWith]
        exact .inl rfl
      · rw [hwindow, hchange, changeWindow_window, if_neg hy]
        rfl
      · rw [hwindow, hchange, changeWindow_window, if_pos rfl]
        simp only [decide_eq_true_eq]
        rfl
    · have hrest : u = v := by
        simp only [u]
        cases ho : c.origin with
        | window w => exact absurd ho (hw w)
        | _ => rfl
      rw [ht, hrest]
      rfl
  · refine ⟨fun h => ?_, fun w rest i hr hw hi => ?_⟩
    · by_cases hr : s.run = .running
      · exact (if_pos hr).trans (grantLoop_rests 8 s (h.resolve_left (not_not.2 hr)))
      · exact if_neg hr
    · intro x id t
      obtain ⟨⟨u, hu, ht⟩, hwait, hdue, hwindow⟩ := grant_effect i w s
      have hcampaign : ∀ j, t.campaign j = u.campaign j := fun j => congrArg (·.campaign j) ht
      have hqueue : ∀ q, t.queue q = u.queue q := fun q => congrArg (·.queue q) ht
      have hcustody : t.custody = _ := (congrArg (·.custody) ht).trans hu.custody
      have hnextId : t.ctrl.nextId = _ := (congrArg (·.ctrl.nextId) ht).trans hu.nextId
      refine ⟨(if_pos hr).trans (grantLoop_grants 7 s w rest i hw hi), hwait.trans (congrArg List.tail hw), hdue,
        (hwindow w).trans (if_pos rfl), fun v hv => (hwindow v).trans (if_neg hv),
        fun j hj => (hcampaign j).trans (hu.others j hj), hnextId.trans ?_, (hcampaign i).trans (hu.campaign.trans ?_), ?_,
        fun q hq => (hqueue q).trans (hu.queues q hq), hcustody.trans ?_⟩
      · rw [createdCampaign_spans]
      · exact createdCampaign_spans _ _ _ _ _
      · rw [hqueue, hcampaign, hu.queue, hu.campaign]
        rfl
      · rw [createdCampaign_spans]
        by_cases hx : (s.window w).spans = []
        · simp [hx, headLeft, x]
        · simp [hx, headLeft, Campaign.stepCircuit, x, id]
  · exact ⟨fun h => if_pos h, slotWord_toNat c⟩

end

section
/-! PROOF. An abort (03 R62 to R64): the step given up, the entries owned released or passed on, the join sets left. -/

namespace Sys2Proof.Machine

/-- One interest of an aborted campaign counted (03 R63 R64). -/
def Counts.addAbandoned (c : Counts) : Counts := { c with abandoned := c.abandoned + 1 }

/-! ### An entry released (04 R85, 01 R19) -/

/-- The Probe Table with an entry freed: it has left its launch queue and keeps its generation alone. -/
def State.probesFreed (s : State) (e : Fin 64) : Probes := (freeOne e (dequeueIfQueued e s)).probes

section Freed

variable (e : Fin 64) (s : State)

theorem probesFreed_outcomes : (s.probesFreed e).outcomes = s.probes.outcomes := by
  unfold State.probesFreed dequeueIfQueued
  split <;> rfl

theorem probesFreed_scheds (h : (s.entry e).state ≠ .queued) : (s.probesFreed e).scheds = s.probes.scheds := by
  unfold State.probesFreed dequeueIfQueued
  rw [if_neg h]
  rfl

/-- A QUEUED entry leaves the queue of its class on its link, and no other queue. -/
theorem probesFreed_queued (h : (s.entry e).state = .queued) (k : Fin 4) : (s.probesFreed e).scheds.get k =
    if k = (s.entry e).link then
      (s.launchSched (s.entry e).link).setQueueOf (s.entry e).cls
        (((s.launchSched (s.entry e).link).queueOf (s.entry e).cls).erase e)
    else s.launchSched k := by
  unfold State.probesFreed dequeueIfQueued
  rw [if_pos h]
  exact modSched_launchSched _ k (fun q => q.setQueueOf (s.entry e).cls ((q.queueOf (s.entry e).cls).erase e)) s

theorem releaseEntry_probes : (releaseEntry e s).probes = s.probesFreed e :=
  congrArg (·.probes) (releaseEntry_move e s).frame

theorem releaseEntry_frame : releaseEntry e s =
    { s with probes := s.probesFreed e, custody := (releaseEntry e s).custody, master := (releaseEntry e s).master } :=
  (releaseEntry_move e s).within

theorem releaseEntry_entry (d : Fin 64) : (releaseEntry e s).entry d =
    if d = e then { generation := (s.entry e).generation } else s.entry d :=
  (congrArg (·.entry d) (releaseEntry_move e s).frame).trans (entryFreed_entry e d s)

/-- To the Custody Unit a release is the leave of the entry's circuit. -/
theorem releaseEntry_custody : (releaseEntry e s).custody = (leave (s.entry e).circuit .watched s).custody := by
  have h : (releaseEntry e s).custody = (leave (s.entry e).circuit .watched { s with probes := s.probesFreed e }).custody := by
    unfold releaseEntry
    rw [entryFreed_frame]
    rfl
  rw [h]
  unfold leave
  rw [disturb_eq, disturb_eq]
  rfl

end Freed

/-! ### One entry of the aborted campaign (03 R63 R64) -/

section Abort

variable (i : Fin 8) (e : Fin 64) (s : State)

theorem abortOwned_rests (h : (s.entry e).state.isOpen = false ∨ (s.entry e).owner ≠ i) : abortOwned i s e = s := by
  unfold abortOwned
  rcases h with h | h <;> simp [h]

theorem abortOwned_releases (ho : (s.entry e).state.isOpen = true) (hi : (s.entry e).owner = i) (hj : (s.entry e).joiners = []) :
    abortOwned i s e = closeOwner i Counts.addAbandoned (releaseEntry e s) := by
  simp only [abortOwned, ho, hi, hj]
  rfl

theorem abortOwned_passes (ho : (s.entry e).state.isOpen = true) (hi : (s.entry e).owner = i) (j : Fin 8) (rest : List (Fin 8))
    (hj : (s.entry e).joiners = j :: rest) : abortOwned i s e =
      modCampaign j (fun c => { c with owned := c.owned + 1, joinedOut := c.joinedOut - 1 })
        (closeOwner i Counts.addAbandoned (modEntry e (fun x => { x with owner := j, joiners := rest }) s)) := by
  simp only [abortOwned, ho, hi, hj]
  rfl

theorem abortJoined_rests (h : (s.entry e).state = .free ∨ i ∉ (s.entry e).joiners) : abortJoined i s e = s := by
  unfold abortJoined
  rcases h with h | h <;> simp [h]

theorem abortJoined_leaves (hs : (s.entry e).state ≠ .free) (hi : i ∈ (s.entry e).joiners) :
    abortJoined i s e = closeJoiner Counts.addAbandoned (modEntry e (fun x => { x with joiners := x.joiners.erase i }) s) i := by
  unfold abortJoined
  exact if_pos (by simp [hs, hi])

/-- An entry after the aborted campaign has given up what it owns. -/
def ownedAfter (i : Fin 8) (x : Entry) : Entry :=
  if x.state.isOpen = true ∧ x.owner = i then
    match x.joiners with
    | [] => { generation := x.generation }
    | j :: rest => { x with owner := j, joiners := rest }
  else x

/-- An entry after the aborted campaign has left its join set. -/
def joinedAfter (i : Fin 8) (x : Entry) : Entry :=
  if x.state = .free then x else { x with joiners := x.joiners.erase i }

theorem isOpen_not_free {st : EntryState} (h : st.isOpen = true) : st ≠ .free := by
  rintro rfl
  cases h

theorem ownedAfter_released (i : Fin 8) (x : Entry) (ho : x.state.isOpen = true) (hi : x.owner = i) (hj : x.joiners = []) :
    ownedAfter i x = { generation := x.generation } := by
  simp [ownedAfter, ho, hi, hj]

theorem ownedAfter_passed (i : Fin 8) (x : Entry) (ho : x.state.isOpen = true) (hi : x.owner = i) (j : Fin 8) (rest : List (Fin 8))
    (hj : x.joiners = j :: rest) : ownedAfter i x = { x with owner := j, joiners := rest } := by
  simp [ownedAfter, ho, hi, hj]

theorem ownedAfter_kept (i : Fin 8) (x : Entry) (h : x.state.isOpen = false ∨ x.owner ≠ i) : ownedAfter i x = x := by
  rcases h with h | h <;> simp [ownedAfter, h]

theorem abortOwned_entry (d : Fin 64) :
    (abortOwned i s e).entry d = if d = e then ownedAfter i (s.entry e) else s.entry d := by
  by_cases h : (s.entry e).state.isOpen = true ∧ (s.entry e).owner = i
  · cases hj : (s.entry e).joiners with
    | nil =>
      rw [abortOwned_releases i e s h.1 h.2 hj, ownedAfter_released i _ h.1 h.2 hj]
      exact releaseEntry_entry e s d
    | cons j rest =>
      rw [abortOwned_passes i e s h.1 h.2 j rest hj, ownedAfter_passed i _ h.1 h.2 j rest hj]
      exact modEntry_entry e d (fun x => { x with owner := j, joiners := rest }) s
  · have hn := (not_and_or.1 h).imp_left Bool.eq_false_iff.2
    rw [abortOwned_rests i e s hn, ownedAfter_kept i _ hn]
    split
    · next hd => rw [hd]
    · rfl

theorem abortJoined_entry (d : Fin 64) :
    (abortJoined i s e).entry d = if d = e then joinedAfter i (s.entry e) else s.entry d := by
  by_cases hs : (s.entry e).state = .free
  · rw [joinedAfter, if_pos hs, abortJoined_rests i e s (.inl hs)]
    split
    · next hd => rw [hd]
    · rfl
  · rw [joinedAfter, if_neg hs]
    by_cases hi : i ∈ (s.entry e).joiners
    · exact abortJoined_leaves i e s hs hi ▸ modEntry_entry e d (fun x => { x with joiners := x.joiners.erase i }) s
    · rw [abortJoined_rests i e s (.inr hi), List.erase_of_not_mem hi]
      split
      · next hd => rw [hd]
      · rfl

end Abort

/-! ### All entries of the aborted campaign -/

/-- A walk of the entries in which each step changes its own entry alone. -/
theorem foldl_entry (f : State → Fin 64 → State) (g : Entry → Entry)
    (h : ∀ s e d, (f s e).entry d = if d = e then g (s.entry e) else s.entry d) (l : List (Fin 64)) (hl : l.Nodup) (s : State)
    (d : Fin 64) : (l.foldl f s).entry d = if d ∈ l then g (s.entry d) else s.entry d := by
  induction l generalizing s with
  | nil => rfl
  | cons e l ih =>
    obtain ⟨he, hl⟩ := List.nodup_cons.1 hl
    rw [List.foldl_cons, ih hl, h]
    by_cases hd : d = e
    · simp [hd, he]
    · simp [hd]

/-- What giving up entries keeps: all but the tables it works on, and of those the campaign's state and step, its cursor and id, the
custody requests that wait and whose action is in flight. -/
structure GivesUp (i : Fin 8) (s t : State) : Prop where
  frame : t = { s with ctrl := t.ctrl, probes := t.probes, custody := t.custody, master := t.master }
  campaign : ∃ owned joinedOut counts, t.campaign i = { s.campaign i with owned := owned, joinedOut := joinedOut, counts := counts }
  requests : t.custody.queue = s.custody.queue
  action : t.custody.action.map Action.req = s.custody.action.map Action.req

theorem GivesUp.refl (i : Fin 8) (s : State) : GivesUp i s s := ⟨rfl, ⟨_, _, _, rfl⟩, rfl, rfl⟩

theorem GivesUp.trans {i : Fin 8} {s t u : State} (h : GivesUp i s t) (k : GivesUp i t u) : GivesUp i s u where
  frame := by
    rw [k.frame, h.frame]
  campaign := by
    obtain ⟨_, _, _, hc⟩ := h.campaign
    obtain ⟨_, _, _, kc⟩ := k.campaign
    exact ⟨_, _, _, by rw [kc, hc]⟩
  requests := k.requests.trans h.requests
  action := k.action.trans h.action

theorem foldl_givesUp (i : Fin 8) (f : State → Fin 64 → State) (h : ∀ s e, GivesUp i s (f s e)) (l : List (Fin 64)) (s : State) :
    GivesUp i s (l.foldl f s) := by
  induction l generalizing s with
  | nil => exact .refl i s
  | cons e l ih => exact (h s e).trans (ih _)

theorem releaseEntry_givesUp (i : Fin 8) (e : Fin 64) (s : State) : GivesUp i s (releaseEntry e s) where
  frame := by
    have hctrl : (releaseEntry e s).ctrl = s.ctrl := congrArg (·.ctrl) (releaseEntry_frame e s)
    rw [releaseEntry_probes, hctrl]
    exact releaseEntry_frame e s
  campaign := ⟨_, _, _, congrArg (·.campaign i) (releaseEntry_frame e s)⟩
  requests := by
    rw [releaseEntry_custody, leave_frame]
  action := by
    rw [(releaseEntry_move e s).action, Option.map_map]
    rfl

/-- Any campaign's owned, joined and counts may change. -/
theorem modCampaign_givesUp (i j : Fin 8) (f : Campaign → Campaign) (s : State)
    (hf : ∀ c, ∃ owned joinedOut counts, f c = { c with owned := owned, joinedOut := joinedOut, counts := counts }) :
    GivesUp i s (modCampaign j f s) where
  frame := rfl
  campaign := by
    rw [modCampaign_campaign]
    split
    · next h => exact h ▸ hf (s.campaign i)
    · exact ⟨_, _, _, rfl⟩
  requests := rfl
  action := rfl

theorem modEntry_givesUp (i : Fin 8) (e : Fin 64) (f : Entry → Entry) (s : State) : GivesUp i s (modEntry e f s) :=
  ⟨rfl, ⟨_, _, _, rfl⟩, rfl, rfl⟩

theorem closeOwner_givesUp (i j : Fin 8) (f : Counts → Counts) (s : State) : GivesUp i s (closeOwner j f s) :=
  modCampaign_givesUp i j _ s fun _ => ⟨_, _, _, rfl⟩

theorem closeJoiner_givesUp (i j : Fin 8) (f : Counts → Counts) (s : State) : GivesUp i s (closeJoiner f s j) :=
  modCampaign_givesUp i j _ s fun _ => ⟨_, _, _, rfl⟩

theorem abortOwned_givesUp (i : Fin 8) (s : State) (e : Fin 64) : GivesUp i s (abortOwned i s e) := by
  by_cases h : (s.entry e).state.isOpen = true ∧ (s.entry e).owner = i
  · cases hj : (s.entry e).joiners with
    | nil =>
      rw [abortOwned_releases i e s h.1 h.2 hj]
      exact (releaseEntry_givesUp i e s).trans (closeOwner_givesUp i i _ _)
    | cons j rest =>
      rw [abortOwned_passes i e s h.1 h.2 j rest hj]
      exact ((modEntry_givesUp i e _ s).trans (closeOwner_givesUp i i _ _)).trans
        (modCampaign_givesUp i j _ _ fun _ => ⟨_, _, _, rfl⟩)
  · rw [abortOwned_rests i e s ((not_and_or.1 h).imp_left Bool.eq_false_iff.2)]
    exact .refl i s

theorem abortJoined_givesUp (i : Fin 8) (s : State) (e : Fin 64) : GivesUp i s (abortJoined i s e) := by
  by_cases h : (s.entry e).state ≠ .free ∧ i ∈ (s.entry e).joiners
  · rw [abortJoined_leaves i e s h.1 h.2]
    exact (modEntry_givesUp i e _ s).trans (closeJoiner_givesUp i i _ _)
  · rw [abortJoined_rests i e s ((not_and_or.1 h).imp_left not_not.1)]
    exact .refl i s

/-! ### The slot word -/

theorem slotWordWrite_campaign (i j : Fin 8) (s : State) : (slotWordWrite i s).campaign j = s.campaign j := rfl

theorem slotWordWrite_entry (i : Fin 8) (s : State) (e : Fin 64) : (slotWordWrite i s).entry e = s.entry e := rfl

theorem slotWordWrite_custody (i : Fin 8) (s : State) : (slotWordWrite i s).custody = s.custody := rfl

/-! ### The abort (03 R62) -/

/-- The campaign ABORTING with its step given up, before its entries are. -/
def abortBegun (i : Fin 8) (s : State) : State := modCampaign i (fun c => { c with state := .aborting }) (abandonStep i s)

/-- The entries owned given up in ascending slot, then the join sets left. -/
def entriesGivenUp (i : Fin 8) (s : State) : State :=
  (List.finRange 64).foldl (abortJoined i) ((List.finRange 64).foldl (abortOwned i) s)

theorem becomeAborting_eq (i : Fin 8) (s : State) : becomeAborting i s = slotWordWrite i (entriesGivenUp i (abortBegun i s)) := rfl

theorem entriesGivenUp_givesUp (i : Fin 8) (s : State) : GivesUp i s (entriesGivenUp i s) :=
  (foldl_givesUp i _ (abortOwned_givesUp i) _ s).trans (foldl_givesUp i _ (abortJoined_givesUp i) _ _)

theorem entriesGivenUp_entry (i : Fin 8) (s : State) (e : Fin 64) :
    (entriesGivenUp i s).entry e = joinedAfter i (ownedAfter i (s.entry e)) := by
  have hnodup := List.nodup_finRange 64
  have hmem := List.mem_finRange e
  rw [entriesGivenUp, foldl_entry _ (joinedAfter i) (fun s e d => abortJoined_entry i e s d) _ hnodup, if_pos hmem,
    foldl_entry _ (ownedAfter i) (fun s e d => abortOwned_entry i e s d) _ hnodup, if_pos hmem]

theorem abortBegun_campaign (i : Fin 8) (s : State) :
    (abortBegun i s).campaign i = { s.campaign i with state := .aborting, step := .idle } := by
  have h : (abandonStep i s).campaign i = { s.campaign i with step := .idle } := (setStep_campaign i s .idle i).trans (if_pos rfl)
  rw [abortBegun, modCampaign_campaign, if_pos rfl, h]

/-- A request of an aborted campaign is no live one (03 R62). -/
theorem killReq_not_live (i : Fin 8) (req : CustodyReq) (id d : Nat) : killReq i req ≠ .select i id d true := by
  cases req with
  | select j n c live =>
    simp only [killReq, ne_eq, CustodyReq.select.injEq, Bool.and_eq_true, decide_eq_true_eq, not_and]
    exact fun hj _ _ _ hne => hne hj
  | _ => exact CustodyReq.noConfusion

theorem abortBegun_requests (i : Fin 8) (s : State) :
    (abortBegun i s).custody.queue = s.custody.queue.map (fun x => (x.1, killReq i x.2)) := rfl

theorem abortBegun_action (i : Fin 8) (s : State) :
    (abortBegun i s).custody.action.map Action.req = s.custody.action.map (fun a => killReq i a.req) := Option.map_map _ _ _

theorem becomeAborting_requests (i : Fin 8) (s : State) (n id d : Nat) :
    (n, CustodyReq.select i id d true) ∉ (becomeAborting i s).custody.queue := by
  rw [becomeAborting_eq, slotWordWrite_custody, (entriesGivenUp_givesUp i _).requests, abortBegun_requests, List.mem_map]
  rintro ⟨x, -, hx⟩
  exact killReq_not_live i x.2 id d (Prod.mk.inj hx).2

theorem becomeAborting_action (i : Fin 8) (s : State) (a : Action) (id d : Nat) (ha : (becomeAborting i s).custody.action = some a) :
    a.req ≠ .select i id d true := by
  have h := (entriesGivenUp_givesUp i (abortBegun i s)).action.trans (abortBegun_action i s)
  rw [becomeAborting_eq, slotWordWrite_custody] at ha
  rw [ha, Option.map_some, eq_comm, Option.map_eq_some_iff] at h
  obtain ⟨b, -, hb⟩ := h
  exact hb ▸ killReq_not_live i b.req id d

theorem becomeAborting_campaign (i : Fin 8) (s : State) : ∃ owned joinedOut counts, (becomeAborting i s).campaign i =
    { s.campaign i with state := .aborting, step := .idle, owned := owned, joinedOut := joinedOut, counts := counts } := by
  obtain ⟨owned, joinedOut, counts, h⟩ := (entriesGivenUp_givesUp i (abortBegun i s)).campaign
  refine ⟨owned, joinedOut, counts, ?_⟩
  rw [becomeAborting_eq, slotWordWrite_campaign, h, abortBegun_campaign]

theorem becomeAborting_entry (i : Fin 8) (s : State) (e : Fin 64) :
    (becomeAborting i s).entry e = joinedAfter i (ownedAfter i (s.entry e)) := by
  rw [becomeAborting_eq, slotWordWrite_entry, entriesGivenUp_entry]
  rfl

theorem becomeAborting_frame (i : Fin 8) (s : State) :
    let t := becomeAborting i s
    t = { s with ctrl := t.ctrl, probes := t.probes, custody := t.custody, master := t.master } := by
  intro t
  have h := (entriesGivenUp_givesUp i (abortBegun i s)).frame
  simp only [t, becomeAborting_eq]
  generalize entriesGivenUp i (abortBegun i s) = u at h
  rw [h]
  rfl

/-- The slot word of the campaign as the abort leaves it is the last access handed over. -/
theorem becomeAborting_queue (i : Fin 8) (s : State) : ∃ before, (becomeAborting i s).queue .campaign =
    before ++ [⟨addrOf s.params.controlBlock (0x170 + 4 * i.val), some (slotWord ((becomeAborting i s).campaign i)), .plain⟩] := by
  have hparams : (entriesGivenUp i (abortBegun i s)).params = s.params :=
    congrArg (·.params) (entriesGivenUp_givesUp i (abortBegun i s)).frame
  refine ⟨(entriesGivenUp i (abortBegun i s)).queue .campaign, ?_⟩
  rw [becomeAborting_eq, slotWordWrite_queue, if_pos rfl, slotWordWrite_campaign, hparams]

/-! ### The effects of one entry given up -/

section Effects

variable (i : Fin 8) (e : Fin 64) (s : State)

/-- The circuit of a released entry leaves CLAIMED, and its engine word is handed over. -/
theorem releaseEntry_circuit :
    let c := (s.entry e).circuit
    let m := s.mapEntry c
    let after := if m.release = .toReleased then EngineState.released else if m.release = .toIgnored then .ignored else .watched
    (releaseEntry e s).mapEntry c = { m with engine := after, release := .none } ∧
    (releaseEntry e s).queue .custody = s.queue .custody ++
      [⟨recordAddr s c 0x0C, some (engineWord after m.lastVerdict m.lastCampaign), .plain⟩] ∧
    ∀ q, q ≠ .custody → (releaseEntry e s).queue q = s.queue q := by
  intro c m after
  have h := releaseEntry_move e s
  simp only [afterRelease_eq] at h
  exact ⟨h.entry, h.queue, h.queues⟩

theorem abortPass_campaign (j m : Fin 8) (u : State) :
    (modCampaign j (fun c => { c with owned := c.owned + 1, joinedOut := c.joinedOut - 1 })
      (closeOwner i Counts.addAbandoned u)).campaign m =
    { u.campaign m with
      owned := (u.campaign m).owned - (if m = i then 1 else 0) + (if m = j then 1 else 0)
      joinedOut := (u.campaign m).joinedOut - (if m = j then 1 else 0)
      counts := if m = i then (u.campaign m).counts.addAbandoned else (u.campaign m).counts } := by
  rw [modCampaign_campaign, closeOwner_campaign, closeOwner_campaign]
  by_cases hj : m = j <;> by_cases hi : m = i <;> simp_all

end Effects

end Sys2Proof.Machine

open Sys2Proof Sys2Proof.Machine

/-- Settles O35: one entry given up is a release or a change of owner, one join set left is an erasure, and the two walks over the entries
apply them to each entry once. -/
theorem abortGivesUpTheEntries : Obligations.AbortGivesUpTheEntries := by
  intro i s c
  refine ⟨fun e => ?_, fun e => ?_, ?_⟩
  · intro x t up
    refine ⟨abortOwned_rests i e s, fun ho hi => ⟨fun d hd => (abortOwned_entry i e s d).trans (if_neg hd),
      fun hj => ?_, fun j rest hj => ?_⟩⟩
    · let u := releaseEntry e s
      have ht : t = closeOwner i Counts.addAbandoned u := abortOwned_releases i e s ho hi hj
      have hu : u = _ := releaseEntry_frame e s
      have hprobes : t.probes = s.probesFreed e := ht ▸ releaseEntry_probes e s
      have hcampaign : ∀ j, u.campaign j = s.campaign j := fun j => congrArg (·.campaign j) hu
      have hclosed : ∀ j, t.campaign j = _ := fun j => ht ▸ closeOwner_campaign Counts.addAbandoned i j u
      have hcircuit := releaseEntry_circuit e s
      refine ⟨?_, ?_, fun j hn => ?_, ?_, ?_, fun hq => ?_, fun hq => ⟨?_, ?_, fun k hk => ?_⟩, ?_, ?_, ?_, ?_⟩
      · exact (abortOwned_entry i e s e).trans ((if_pos rfl).trans (ownedAfter_released i x ho hi hj))
      · rw [hclosed, if_pos rfl, hcampaign]
        rfl
      · rw [hclosed, if_neg hn, hcampaign]
      · rw [ht, hu]
        rfl
      · rw [hprobes, probesFreed_outcomes]
      · rw [hprobes, probesFreed_scheds e s hq]
      · rw [State.launchSched, hprobes, probesFreed_queued e s hq, if_pos rfl, setQueueOf_queueOf]
      · rw [State.launchSched, hprobes, probesFreed_queued e s hq, if_pos rfl, setQueueOf_queueOf_other]
      · rw [State.launchSched, hprobes, probesFreed_queued e s hq, if_neg hk]
      · rw [ht, ← releaseEntry_custody]
        rfl
      · rw [ht]
        exact hcircuit.1
      · rw [ht]
        exact hcircuit.2.1
      · rw [ht]
        exact hcircuit.2.2
    · have ht : t = _ := abortOwned_passes i e s ho hi j rest hj
      have hcampaign : ∀ m, t.campaign m = _ := fun m => ht ▸ abortPass_campaign i j m _
      refine ⟨ht ▸ rfl, ?_, ?_, fun hn => ?_, fun m hi hj => ?_⟩
      · exact (abortOwned_entry i e s e).trans ((if_pos rfl).trans (ownedAfter_passed i x ho hi j rest hj))
      · rw [hcampaign, if_pos rfl, if_pos rfl]
        simp only [eq_comm (a := i) (b := j)]
        rfl
      · rw [hcampaign, if_neg hn, if_pos rfl, if_neg hn]
        rfl
      · rw [hcampaign, if_neg hi, if_neg hj, if_neg hi]
        rfl
  · intro x t
    refine ⟨abortJoined_rests i e s, fun hs hi => ?_⟩
    have ht : t = _ := abortJoined_leaves i e s hs hi
    have hcampaign : ∀ j, t.campaign j = _ := fun j => ht ▸ closeJoiner_campaign Counts.addAbandoned i j _
    have hentry : ∀ d, t.entry d = _ := abortJoined_entry i e s
    exact ⟨ht ▸ rfl, (hentry e).trans ((if_pos rfl).trans (if_neg hs)), fun d hd => (hentry d).trans (if_neg hd),
      (hcampaign i).trans (if_pos rfl), fun j hj => (hcampaign j).trans (if_neg hj)⟩
  · intro t
    obtain ⟨owned, joinedOut, counts, hcampaign⟩ := becomeAborting_campaign i s
    have hentry : ∀ e, t.entry e = joinedAfter i (ownedAfter i (s.entry e)) := becomeAborting_entry i s
    refine ⟨becomeAborting_frame i s, fun e => ?_, ?_, ?_, ?_, ?_, becomeAborting_requests i s, becomeAborting_action i s,
      becomeAborting_queue i s⟩
    · intro x
      refine ⟨fun ho hi hj => ?_, fun j rest ho hi hj => ?_, fun hs hn => ?_, fun hs => ?_⟩
      · rw [hentry, ownedAfter_released i _ ho hi hj]
        exact if_pos rfl
      · rw [hentry, ownedAfter_passed i _ ho hi j rest hj]
        exact if_neg (isOpen_not_free ho)
      · rw [hentry, ownedAfter_kept i _ hn]
        exact if_neg hs
      · rw [hentry, ownedAfter_kept i _ (.inl (congrArg EntryState.isOpen hs))]
        exact if_pos hs
    all_goals rw [hcampaign]

end

section
/-! PROOF. The choice of a link (04 R74) and of a queue (04 R77), and what a link change does to the queued entries (04 R87 R88). -/

namespace Sys2Proof.Machine

/-! ### Link choice (04 R74) -/

theorem linkUp_iff (s : State) (k : Fin 4) : s.linkUp k = true ↔ (s.link k).state = .up := decide_eq_true_iff

theorem linkage_eq_bind {l : Linkage} (h : l ≠ .reroute) : l = .bind := by
  cases l with
  | reroute => exact absurd rfl h
  | bind => rfl

section Choice

variable (s : State) (r : Reach)

theorem chooseLink_primary (h : s.linkUp r.primary = true) : chooseLink s r = some r.primary := by
  unfold chooseLink
  cases (s.linkParams r.primary).linkage <;> simp [h]

theorem chooseLink_reroute (hl : (s.linkParams r.primary).linkage = .reroute) (h : ¬ s.linkUp r.primary = true) :
    chooseLink s r = some (if (r.altValid && s.linkUp r.alternate) = true then r.alternate else r.primary) := by
  unfold chooseLink
  rw [hl]
  by_cases ha : (r.altValid && s.linkUp r.alternate) = true <;> simp only [h, ha] <;> rfl

theorem chooseLink_bind (hl : (s.linkParams r.primary).linkage = .bind) (h : ¬ s.linkUp r.primary = true) :
    chooseLink s r = none := by
  unfold chooseLink
  rw [hl]
  exact if_neg h

end Choice

/-! ### Queue choice (04 R77) -/

/-- The weight of a class's queue under WEIGHTED (04 R77). -/
def Params.weightOf (p : Params) (c : Class) : Nat := if c = .urgent then p.urgentWeight else p.routineWeight

section Pick

variable (p : Params) (q : LaunchSched)

theorem pickQueue_empty (hu : q.urgent = []) (hr : q.routine = []) : pickQueue p q = none := by
  have hqueue : ∀ c, q.queueOf c = [] := fun c => by
    cases c with
    | urgent => exact hu
    | routine => exact hr
  simp [pickQueue, hqueue, hu, hr]

theorem pickQueue_strict (h : p.weighted = false) : pickQueue p q =
    if q.urgent ≠ [] then some ⟨.urgent, q.turn, q.count⟩
    else if q.routine ≠ [] then some ⟨.routine, q.turn, q.count⟩ else none := by
  simp [pickQueue, h]

theorem pickQueue_weighted (h : p.weighted = true) (hq : q.queueOf q.turn ≠ [] ∨ q.queueOf q.turn.other ≠ []) : pickQueue p q =
    if q.queueOf q.turn ≠ [] ∧ q.count < p.weightOf q.turn then some ⟨q.turn, q.turn, q.count + 1⟩
    else if q.queueOf q.turn.other = [] then some ⟨q.turn, q.turn, 1⟩ else some ⟨q.turn.other, q.turn.other, 1⟩ := by
  have hsome : ¬ (q.queueOf q.turn = [] ∧ q.queueOf q.turn.other = []) := not_and_or.2 hq
  cases hturn : q.turn <;> rw [hturn] at hsome <;> simp [pickQueue, Params.weightOf, h, hturn, hsome]

end Pick

/-- What is launched is the head of the queue picked. -/
theorem launchPick_eq_some_iff (k : Fin 4) (s : State) (p : PickResult) (i : Fin 64) : launchPick k s = some (p, i) ↔
    pickQueue s.params (s.launchSched k) = some p ∧ ∃ rest, (s.launchSched k).queueOf p.cls = i :: rest := by
  unfold launchPick
  cases pickQueue s.params (s.launchSched k) with
  | none => simp
  | some p' =>
    cases hq : (s.launchSched k).queueOf p'.cls with
    | nil =>
      simp only [hq, reduceCtorEq, Option.some.injEq, false_iff, not_and, not_exists]
      rintro rfl rest h
      exact List.cons_ne_nil i rest (h.symm.trans hq)
    | cons i' rest =>
      simp only [hq, Option.some.injEq, Prod.mk.injEq]
      constructor
      · rintro ⟨rfl, rfl⟩
        exact ⟨rfl, rest, hq⟩
      · rintro ⟨rfl, rest', h⟩
        exact ⟨rfl, (List.cons.inj (hq.symm.trans h)).1⟩

theorem launchPick_eq_none (k : Fin 4) (s : State) (h : pickQueue s.params (s.launchSched k) = none) : launchPick k s = none := by
  simp [launchPick, h]

/-! ### An entry joins a launch queue and leaves one (04 R75) -/

/-- An entry becomes QUEUED at the tail of its class's queue on a link, and no other queue is changed (04 R75 R80). -/
theorem enqueue_effect (i : Fin 64) (k : Fin 4) (s : State) :
    let e := s.entry i
    let t := enqueue i k s
    t.entry i = { e with state := .queued, link := k, timer := none } ∧ t.probes.outcomes = s.probes.outcomes ∧
    (∀ j, j ≠ k → t.launchSched j = s.launchSched j) ∧
    (t.launchSched k).queueOf e.cls = (s.launchSched k).queueOf e.cls ++ [i] ∧
    (t.launchSched k).queueOf e.cls.other = (s.launchSched k).queueOf e.cls.other := by
  intro e t
  have hsched : ∀ j, t.launchSched j = _ := fun j => enqueue_launchSched i k j s
  refine ⟨(enqueue_entry i i k s).trans (if_pos rfl), rfl, fun j hj => (hsched j).trans (if_neg hj), ?_, ?_⟩
  · rw [hsched, if_pos rfl, setQueueOf_queueOf]
  · rw [hsched, if_pos rfl, setQueueOf_queueOf_other]

/-- An entry leaves the queue of its class on its link, and no other queue. -/
theorem dequeue_launchSched (i : Fin 64) (l : Fin 4) (s : State) : (dequeue i s).launchSched l =
    if l = (s.entry i).link
    then (s.launchSched (s.entry i).link).setQueueOf (s.entry i).cls
      (((s.launchSched (s.entry i).link).queueOf (s.entry i).cls).erase i)
    else s.launchSched l :=
  modSched_launchSched _ l (fun q => q.setQueueOf (s.entry i).cls ((q.queueOf (s.entry i).cls).erase i)) s

section Left

variable (i : Fin 64) (s : State)

theorem dequeue_queueOf : ((dequeue i s).launchSched (s.entry i).link).queueOf (s.entry i).cls =
    ((s.launchSched (s.entry i).link).queueOf (s.entry i).cls).erase i := by
  rw [dequeue_launchSched, if_pos rfl, setQueueOf_queueOf]

theorem dequeue_queueOf_other (l : Fin 4) : ((dequeue i s).launchSched l).queueOf (s.entry i).cls.other =
    (s.launchSched l).queueOf (s.entry i).cls.other := by
  rw [dequeue_launchSched]
  split
  · next h => rw [h, setQueueOf_queueOf_other]
  · rfl

/-- The entry `i` has left its launch queue for the tail of its class's queue on link `j`, and nothing else is changed (04 R87 R88). -/
def Requeued (t : State) (j : Fin 4) : Prop :=
  let e := s.entry i
  t = { s with probes := t.probes } ∧ t.entry i = { e with state := .queued, link := j, timer := none } ∧
  (∀ d, d ≠ i → t.entry d = s.entry d) ∧ t.probes.outcomes = s.probes.outcomes ∧
  (t.launchSched j).queueOf e.cls = (s.launchSched j).queueOf e.cls ++ [i] ∧
  (t.launchSched e.link).queueOf e.cls = ((s.launchSched e.link).queueOf e.cls).erase i ∧
  (∀ l, (t.launchSched l).queueOf e.cls.other = (s.launchSched l).queueOf e.cls.other) ∧
  (∀ l, l ≠ j → l ≠ e.link → t.launchSched l = s.launchSched l)

theorem enqueue_dequeue_requeued (j : Fin 4) (hj : j ≠ (s.entry i).link) : Requeued i s (enqueue i j (dequeue i s)) j := by
  obtain ⟨hentry, houtcomes, hothers, htail, hclass⟩ := enqueue_effect i j (dequeue i s)
  rw [dequeue_launchSched, if_neg hj] at htail
  refine ⟨rfl, hentry, fun d hd => (enqueue_entry i d j _).trans (if_neg hd), houtcomes, htail, ?_, fun l => ?_,
    fun l hl hlink => (hothers l hl).trans ((dequeue_launchSched i l s).trans (if_neg hlink))⟩
  · rw [hothers _ hj.symm]
    exact dequeue_queueOf i s
  · rw [← dequeue_queueOf_other i s l]
    by_cases hl : l = j
    · rw [hl]
      exact hclass
    · rw [hothers l hl]

end Left

/-! ### A link gone DOWN (04 R87) -/

theorem downTarget_primary (s : State) (r : Reach) : downTarget s r.primary r =
    if r.altValid = true ∧ (s.link r.alternate).state = .up then some r.alternate else none := by
  simp [downTarget, ← linkUp_iff]

theorem downTarget_alternate (s : State) (k : Fin 4) (r : Reach) (hk : k ≠ r.primary) : downTarget s k r =
    if (s.link r.primary).state = .up then some r.primary else none := by
  simp [downTarget, hk, ← linkUp_iff]

section Down

variable (k : Fin 4) (s : State) (i : Fin 64)

/-- A REROUTE entry whose other link is UP moves there. -/
theorem entryLinkDown_moves (j : Fin 4) (hl : (s.linkParams (s.entry i).reach.primary).linkage = .reroute)
    (hj : downTarget s k (s.entry i).reach = some j) : entryLinkDown k s i = enqueue i j (dequeue i s) := by
  simp [entryLinkDown, hl, hj]

theorem entryLinkDown_stays (hl : (s.linkParams (s.entry i).reach.primary).linkage = .reroute)
    (hj : downTarget s k (s.entry i).reach = none) : entryLinkDown k s i = s := by
  simp [entryLinkDown, hl, hj]

theorem entryLinkDown_concludes (hl : (s.linkParams (s.entry i).reach.primary).linkage = .bind) :
    entryLinkDown k s i = conclude i (if (s.entry i).attempts = 0 then .notTested else .noEcho) (dequeue i s) := by
  simp [entryLinkDown, hl]

end Down

/-! ### A link become UP (04 R88) -/

theorem movesTo_iff (s : State) (j k : Fin 4) (e : Entry) (hjk : j ≠ k) : movesTo s j k e = true ↔
    (s.linkParams e.reach.primary).linkage = .reroute ∧
      (e.reach.primary = k ∨ (e.reach.primary = j ∧ e.reach.altValid = true ∧ e.reach.alternate = k)) := by
  simp [movesTo, hjk, and_assoc]

theorem moveFrom_stays (k : Fin 4) (s : State) (j : Fin 4) (h : j = k ∨ (s.link j).state = .up) : moveFrom k s j = s :=
  if_pos (h.imp_right (linkUp_iff s j).2)

theorem moveFrom_moves (k : Fin 4) (s : State) (j : Fin 4) (hjk : j ≠ k) (hj : ¬ (s.link j).state = .up) :
    moveFrom k s j = ((s.launchSched j).urgent ++ (s.launchSched j).routine).foldl (entryLinkUp j k) s :=
  if_neg (not_or.2 ⟨hjk, mt (linkUp_iff s j).1 hj⟩)

end Sys2Proof.Machine

open Sys2Proof Sys2Proof.Machine

/-- Settles O27: a link change moves an entry by one `dequeue` and one `enqueue` on two different links, and each choice is one of the
branches of its table. -/
theorem linkAndQueueChoice : Obligations.LinkAndQueueChoice := by
  refine ⟨fun s r => ?_, fun p q => ?_, fun k s => ?_, ?_⟩
  · intro reroute up
    have hdown : ¬ up r.primary → ¬ s.linkUp r.primary = true := mt (linkUp_iff s _).1
    refine ⟨fun h => chooseLink_primary s r ((linkUp_iff s _).2 h), fun hl hp hv ha => ?_, fun hl hp ha => ?_,
      fun hl hp => chooseLink_bind s r (linkage_eq_bind hl) (hdown hp)⟩
    · rw [chooseLink_reroute s r hl (hdown hp), if_pos (by simpa [hv] using (linkUp_iff s _).2 ha)]
    · rw [chooseLink_reroute s r hl (hdown hp), if_neg (by simpa [linkUp_iff] using ha)]
  · intro weight mine other
    refine ⟨pickQueue_empty p q, fun h hu => ?_, fun h hu hr => ?_, fun h hm hc => ?_, fun h hm ho => ?_, fun h hm hc ho => ?_⟩
    · rw [pickQueue_strict p q h, if_pos hu]
    · rw [pickQueue_strict p q h, if_neg (not_not.2 hu), if_pos hr]
    · rw [pickQueue_weighted p q h (.inl hm), if_pos ⟨hm, hc⟩]
    · have hpass : ¬ (mine ≠ [] ∧ q.count < weight) := fun x => hm.elim x.1 (Nat.not_le.2 x.2)
      exact (pickQueue_weighted p q h (.inr ho)).trans ((if_neg hpass).trans (if_neg ho))
    · rw [pickQueue_weighted p q h (.inl hm), if_neg (fun x => Nat.not_le.2 x.2 hc), if_pos ho]
  · exact ⟨launchPick_eq_none k s, fun p i rest hp hq => (launchPick_eq_some_iff k s p i).2 ⟨hp, rest, hq⟩⟩
  · intro moves both up
    have hmoves : ∀ (s : State) (i : Fin 64) (j : Fin 4), j ≠ (s.entry i).link → moves s (enqueue i j (dequeue i s)) i j :=
      fun s i j hj => enqueue_dequeue_requeued i s j hj
    refine ⟨fun k s i => ?_, fun _ _ => rfl, fun j k s i => ?_, fun j k s => ⟨moveFrom_stays k s j, moveFrom_moves k s j⟩,
      fun _ _ => rfl⟩
    · intro e t reroute hlink hk
      refine ⟨fun hl hp hv ha => ?_, fun hl hp ha => ?_, fun hl hp ha => ?_, fun hl hp ha => ?_, fun hl => ?_⟩
      · have ht : t = _ := entryLinkDown_moves k s i e.reach.alternate hl (by rw [hp, downTarget_primary, if_pos ⟨hv, ha⟩])
        rw [ht]
        exact hmoves s i _ fun h => hk (hlink ▸ h ▸ ha)
      · exact entryLinkDown_stays k s i hl (by rw [hp, downTarget_primary, if_neg ha])
      · have ht : t = _ := entryLinkDown_moves k s i e.reach.primary hl (by rw [downTarget_alternate s k _ hp, if_pos ha])
        rw [ht]
        exact hmoves s i _ fun h => hp (hlink.symm.trans h.symm)
      · exact entryLinkDown_stays k s i hl (by rw [downTarget_alternate s k _ hp, if_neg ha])
      · have ht : t = _ := entryLinkDown_concludes k s i (linkage_eq_bind hl)
        rw [ht, ← hlink]
        exact ⟨rfl, rfl, (conclude_entry i i _ _).trans (if_pos rfl), fun d hd => (conclude_entry i d _ _).trans (if_neg hd),
          fun l hl => (dequeue_launchSched i l s).trans (if_neg hl), dequeue_queueOf i s, dequeue_queueOf_other i s _⟩
    · intro e fits hlink hjk
      have hfits : movesTo s j k e = true ↔ fits := movesTo_iff s j k e hjk
      refine ⟨fun h => ?_, fun h => if_neg (mt hfits.1 h)⟩
      rw [show entryLinkUp j k s i = _ from if_pos (hfits.2 h)]
      exact hmoves s i k fun h => hjk (hlink.symm.trans h.symm)

end

section
/-! PROOF. Launches (04 R76 R78, 02 R43): what a launch changes, and when one is made. -/

namespace Sys2Proof.Machine

/-! ### A launch (04 R78) -/

section Launch

variable (k : Fin 4) (p : PickResult) (i : Fin 64) (s : State)

theorem launch_frame : launch k p i s = { s with probes := (launch k p i s).probes, links := (launch k p i s).links } := rfl

theorem launch_entry (j : Fin 64) : (launch k p i s).entry j = if j = i then { s.entry i with
      state := .waiting, attempts := (s.entry i).attempts + 1, timer := some (s.params.probeTimeout * 10) }
    else s.entry j :=
  modEntry_entry i j (fun e => { e with
    state := .waiting, attempts := e.attempts + 1, timer := some (s.params.probeTimeout * 10) }) _

theorem launch_launchSched (j : Fin 4) : (launch k p i s).launchSched j = if j = k then
      { (s.launchSched k).setQueueOf p.cls (((s.launchSched k).queueOf p.cls).erase i) with
        turn := p.turn, count := p.count, gap := if (s.linkParams k).gap = 0 then none else some (s.linkParams k).gap }
    else s.launchSched j :=
  modSched_launchSched k j (fun q => { q.setQueueOf p.cls ((q.queueOf p.cls).erase i) with
    turn := p.turn, count := p.count, gap := if (s.linkParams k).gap = 0 then none else some (s.linkParams k).gap }) s

/-- The entry launched leaves the queue picked, and no other. -/
theorem launch_queueOf (c : Class) : ((launch k p i s).launchSched k).queueOf c =
    ((s.launchSched k).setQueueOf p.cls (((s.launchSched k).queueOf p.cls).erase i)).queueOf c := by
  rw [launch_launchSched, if_pos rfl]
  cases c <;> rfl

/-- The PROBE frame joins the transmitter's queue of at most 32, and is counted (05 R99 R105). -/
theorem launch_link (j : Fin 4) : (launch k p i s).link j = if j = k then
      { s.link k with
        txQueue := if (s.link k).txQueue.length < 32
          then (s.link k).txQueue ++
            [probeFrame s.params.ownNode (entryTag i (s.entry i)) (s.entry i).head (s.entry i).trail]
          else (s.link k).txQueue
        counters := { (s.link k).counters with sent := bump (s.link k).counters.sent } }
    else s.link j := by
  unfold launch
  simp only [modEntry_link, modCounters, commitFrame, modLink_link, modSched_link, if_true]
  split <;> rfl

end Launch

/-! ### The conditions of a launch (04 R76) -/

theorem launchReady_iff (k : Fin 4) (s : State) : launchReady k s = true ↔
    s.run = .running ∧ (s.link k).state = .up ∧ s.waitingCount k < (s.linkParams k).limit ∧ (s.launchSched k).gap = none ∧
      s.journal.phase ≠ .stalled := by
  simp [launchReady, State.linkUp, and_assoc]

/-! ### A withdrawal in place of a launch commits no frame (02 R43) -/

theorem link_of_surround {s t : State} (h : t.surround = s.surround) (j : Fin 4) : t.link j = s.link j :=
  congrArg (fun x => x.links.get j) h

/-- A stale echo counts on its link; no take reaches a transmitter's queue. -/
theorem takeEcho_txQueue (e : Echo) (rest : List Echo) (s : State) (j : Fin 4) :
    ((takeEcho e rest s).link j).txQueue = (s.link j).txQueue := by
  unfold takeEcho
  simp only []
  split
  · exact congrArg Link.txQueue (link_of_surround (holdItem_surround _ _) j)
  · rw [modCounters, modLink_link]
    split
    · next h => rw [h]; rfl
    · rfl

theorem takeOne_txQueue (s : State) (j : Fin 4) : ((takeOne s).link j).txQueue = (s.link j).txQueue := by
  have houtcome : ∀ i rest, ((takeOutcome i rest s).link j).txQueue = (s.link j).txQueue := fun i rest =>
    congrArg Link.txQueue (link_of_surround (takeOutcome_surround i rest s) j)
  unfold takeOne
  split
  · rfl
  · exact takeEcho_txQueue _ _ s j
  · exact houtcome _ _
  · split
    · exact takeEcho_txQueue _ _ s j
    · exact houtcome _ _

theorem takeLoop_txQueue (n : Nat) (s : State) (j : Fin 4) : ((takeLoop n s).link j).txQueue = (s.link j).txQueue := by
  induction n generalizing s with
  | zero => rfl
  | succ n ih =>
    unfold takeLoop
    split
    · exact (ih (takeOne s)).trans (takeOne_txQueue s j)
    · rfl

theorem launchOne_fenced_txQueue (k : Fin 4) (p : PickResult) (i : Fin 64) (s : State)
    (h : s.anyFenced (s.entry i).spans = true) (j : Fin 4) : ((launchOne k p i s).link j).txQueue = (s.link j).txQueue := by
  rw [launchOne_fenced k p i s h]
  have hclaims : (serveClaims (withdraw i s)).surround = s.surround := by simp
  exact (takeLoop_txQueue _ _ j).trans (congrArg Link.txQueue (link_of_surround hclaims j))

end Sys2Proof.Machine

open Sys2Proof Sys2Proof.Machine

/-- Settles O29: a launch decision is `launchOne`, made only when `launchReady` holds; a fenced head is withdrawn, which reaches no
transmitter. -/
theorem noFrameForAFencedSpan : Obligations.NoFrameForAFencedSpan := by
  intro k s
  refine ⟨fun p i => launchOne_fenced_txQueue k p i s, fun n h => ?_, fun n hrun hup hlimit hgap hjournal => ?_, rfl⟩
  · exact launchLoop_rests k n s (.inl (Bool.eq_false_iff.2 (mt (launchReady_iff k s).1 h)))
  · have hready : launchReady k s = true := (launchReady_iff k s).2 ⟨hrun, hup, hlimit, hgap, hjournal⟩
    refine ⟨fun h => launchLoop_rests k n s (.inr h), fun p i hp => ?_⟩
    rw [launchLoop_launches k n s p i hready hp]
    refine ⟨fun h => ?_, fun h => ?_⟩
    · have hfree : ¬ s.anyFenced (s.entry i).spans = true := fun hf => by
        obtain ⟨x, hx, hcount⟩ := (anyFenced_iff s _).1 hf
        exact Nat.ne_of_gt hcount (h x hx)
      rw [launchOne_free k p i s (Bool.eq_false_iff.2 hfree)]
    · rw [launchOne_fenced k p i s ((anyFenced_iff s _).2 h)]

/-- Settles O28: the gap's end is one change of a scheduler; a launch is one change each of an entry, a scheduler and a link. -/
theorem launchCommitsTheProbe : Obligations.LaunchCommitsTheProbe := by
  refine ⟨fun k s hrun hgap => ?_, fun k p i s hp => ?_⟩
  · have hruns : gapRuns s k = true := by simp [gapRuns, hrun, hgap]
    have hexec : exec (.launchGapExpiry k) s = .next (settle (modSched k (fun q => { q with gap := none }) s)) :=
      congrArg Host.Outcome.next (if_pos hruns)
    have hsched := fun j => modSched_launchSched k j (fun q => { q with gap := none }) s
    exact ⟨_, hexec, rfl, (hsched k).trans (if_pos rfl), fun j hj => (hsched j).trans (if_neg hj), rfl, rfl, settle_keeps rfl⟩
  · obtain ⟨-, rest, hqueue⟩ := (launchPick_eq_some_iff k s p i).1 hp
    intro e l t
    have hentry : ∀ j, t.entry j = _ := launch_entry k p i s
    have hlink : ∀ j, t.link j = _ := launch_link k p i s
    have hsched : ∀ j, t.launchSched j = _ := launch_launchSched k p i s
    have hk : t.launchSched k = _ := (hsched k).trans (if_pos rfl)
    refine ⟨(hentry i).trans (if_pos rfl), fun j hj => (hentry j).trans (if_neg hj), (hlink k).trans (if_pos rfl),
      fun j hj => ⟨(hlink j).trans (if_neg hj), (hsched j).trans (if_neg hj)⟩, ?_, ?_, ?_, ?_, ?_, launch_frame k p i s⟩
    · rw [launch_queueOf, setQueueOf_queueOf, hqueue, List.erase_cons_head]
    · rw [launch_queueOf, setQueueOf_queueOf_other]
    all_goals rw [hk]

end

section
/-! PROOF. The end of a probe timer (04 R79 R80 R82). -/

namespace Sys2Proof.Machine

section Expiry

variable (i : Fin 64) (s : State)

/-- A probe timer that runs out in RUNNING is an event the part admits (log entry 11). -/
theorem probeTimerRuns_of (st : EntryState) (hrun : s.run = .running) (ht : (s.entry i).timer.isSome = true)
    (hst : (s.entry i).state = st) : probeTimerRuns s st i = true := by
  simp [probeTimerRuns, hrun, ht, hst]

theorem probeTimeout_eq (h : probeTimerRuns s .waiting i = true) : exec (.probeTimeout i) s = .next (settle (timeoutEntry i s)) :=
  congrArg Host.Outcome.next (if_pos h)

theorem backoffExpiry_eq (h : probeTimerRuns s .backoff i = true) : exec (.backoffExpiry i) s = .next (settle (backoffDone i s)) :=
  congrArg Host.Outcome.next (if_pos h)

/-! ### A probe timeout (04 R79) -/

theorem timeoutEntry_retries (h : (s.entry i).attempts < 1 + s.params.retries) : timeoutEntry i s =
    modEntry i (fun e => { e with state := .backoff, timer := some (backoffMs s.params.backoffBase e.attempts) }) s := if_pos h

theorem timeoutEntry_concludes (h : 1 + s.params.retries ≤ (s.entry i).attempts) : timeoutEntry i s = conclude i .noEcho s :=
  if_neg (Nat.not_lt.2 h)

/-- A timeout changes its own entry and the Outcome List at most. -/
theorem timeoutEntry_frame :
    let t := timeoutEntry i s
    t = { s with probes := t.probes } ∧ (∀ j, j ≠ i → t.entry j = s.entry j) ∧ t.probes.scheds = s.probes.scheds := by
  intro t
  rcases Nat.lt_or_ge (s.entry i).attempts (1 + s.params.retries) with h | h
  · rw [show t = _ from timeoutEntry_retries i s h]
    exact ⟨rfl, fun j hj => (modEntry_entry i j _ s).trans (if_neg hj), rfl⟩
  · rw [show t = _ from timeoutEntry_concludes i s h]
    exact ⟨rfl, fun j hj => (conclude_entry i j _ s).trans (if_neg hj), rfl⟩

/-! ### The end of a backoff (04 R80) -/

theorem backoffDone_linked (k : Fin 4) (h : chooseLink s (s.entry i).reach = some k) : backoffDone i s = enqueue i k s := by
  simp [backoffDone, h]

theorem backoffDone_unlinked (h : chooseLink s (s.entry i).reach = none) : backoffDone i s = conclude i .noEcho s := by
  simp [backoffDone, h]

theorem backoffDone_frame :
    let t := backoffDone i s
    t = { s with probes := t.probes } ∧ (∀ j, j ≠ i → t.entry j = s.entry j) := by
  intro t
  cases h : chooseLink s (s.entry i).reach with
  | some k =>
    rw [show t = _ from backoffDone_linked i s k h]
    exact ⟨rfl, fun j hj => (enqueue_entry i j k s).trans (if_neg hj)⟩
  | none =>
    rw [show t = _ from backoffDone_unlinked i s h]
    exact ⟨rfl, fun j hj => (conclude_entry i j _ s).trans (if_neg hj)⟩

end Expiry

end Sys2Proof.Machine

open Sys2Proof Sys2Proof.Machine

/-- Settles O26: each expiry is a change of one entry, or its conclusion, or its return to a launch queue. -/
theorem probeTimersRunOut : Obligations.ProbeTimersRunOut := by
  intro i s hrun ht e concluded
  have hconclude : (conclude i .noEcho s).entry i = concluded := (conclude_entry i i .noEcho s).trans (if_pos rfl)
  refine ⟨fun hst => ?_, fun hst => ?_⟩
  · obtain ⟨hframe, hothers, hscheds⟩ := timeoutEntry_frame i s
    obtain ⟨hhost, hbytes⟩ := settle_keeps (congrArg State.hostSide hframe)
    refine ⟨_, probeTimeout_eq i s (probeTimerRuns_of i s _ hrun ht hst), hframe, hothers, hscheds, hhost, hbytes, fun h => ?_,
      fun h => ?_⟩
    · rw [timeoutEntry_retries i s h]
      exact ⟨rfl, (modEntry_entry i i _ s).trans (if_pos rfl)⟩
    · rw [timeoutEntry_concludes i s h]
      exact ⟨conclude_outcomes i .noEcho s, hconclude⟩
  · obtain ⟨hframe, hothers⟩ := backoffDone_frame i s
    obtain ⟨hhost, hbytes⟩ := settle_keeps (congrArg State.hostSide hframe)
    refine ⟨_, backoffExpiry_eq i s (probeTimerRuns_of i s _ hrun ht hst), hframe, hothers, hhost, hbytes, fun k h => ?_,
      fun h => ?_⟩
    · rw [backoffDone_linked i s k h]
      exact enqueue_effect i k s
    · rw [backoffDone_unlinked i s h]
      exact ⟨hconclude, conclude_outcomes i .noEcho s, rfl⟩

end

section
/-! PROOF. The end of a Reach Map read (04 R72). -/

namespace Sys2Proof.Machine

/-- The reach in a Reach Map byte: bits 1..0, bits 3..2 and bit 4 (11 R183). -/
theorem reachOfWord_fields (w : Word) (pos : Nat) :
    (reachOfWord w pos).primary.val = (byteOf w pos).toNat % 4 ∧ (reachOfWord w pos).alternate.val = (byteOf w pos).toNat / 4 % 4 ∧
    (reachOfWord w pos).altValid = (byteOf w pos).getLsbD 4 :=
  ⟨rfl, rfl, (Nat.testBit_eq_decide_div_mod_eq (i := 4)).symm⟩

/-- The word of a step's Reach Map read returns: the requester alone is told, and the event is served. -/
theorem reachMapReadDone_eq (data : Word) (i : Fin 8) (s : State) (hs : s.readsWith (.reach i)) :
    exec (.reachMapReadDone data) s = .next (settle (reachRead i data s.portFreed)) := by
  obtain ⟨q, addr, hport⟩ := hs
  have hlast : endsReach s = true := by simp [endsReach, State.portTag, hport]
  show Host.Outcome.next (endOf (endsReach s) data s) = _
  rw [endOf_response _ data s q _ hport hlast, endAccess_read s _ rfl]
  rfl

theorem reachRead_waits (i : Fin 8) (data : Word) (s : State) (sel : Selected) (h : (s.campaign i).step = .reach sel) :
    reachRead i data s =
      modCampaign i (fun c => { c with step := .claim sel (reachOfWord data ((reachAddr s sel.head).toNat % 4)) }) s := by
  simp [reachRead, h]

end Sys2Proof.Machine

open Sys2Proof Sys2Proof.Machine

/-- Settles O30: the response frees the port and gives the campaign's step the reach of the byte read. -/
theorem reachMapReadGivesTheReach : Obligations.ReachMapReadGivesTheReach := by
  intro data i sel s hs hstep byte
  let r := reachOfWord data ((reachAddr s sel.head).toNat % 4)
  let u := modCampaign i (fun c => { c with step := .claim sel r }) s.portFreed
  have hexec : exec (.reachMapReadDone data) s = .next (settle u) := by
    rw [reachMapReadDone_eq data i s hs, reachRead_waits i data s.portFreed sel hstep]
    rfl
  have hcampaign : ∀ j, u.campaign j = _ := fun j => modCampaign_campaign i j _ s.portFreed
  obtain ⟨hprimary, halternate, hvalid⟩ := reachOfWord_fields data ((reachAddr s sel.head).toNat % 4)
  exact ⟨u, r, hexec, rfl, (hcampaign i).trans (if_pos rfl), fun j hj => (hcampaign j).trans (if_neg hj), rfl, rfl,
    hprimary, halternate, hvalid, settle_keeps rfl⟩

end

section
/-! PROOF. The bounds of the Echo Staging FIFO and the transmit queues (05 R99 R104) under every command and every step. -/

namespace Sys2Proof.Machine

section Bounds

variable {s : State} (h : s.queuesBounded)

include h

/-- A CONTROL write reaches no queue of the links: a halt and a sweep trigger leave links and FIFO to the service (10 R169). -/
theorem controlWrite_bounded (value : Word) : (controlWrite value s).queuesBounded := by
  have hfields : (controlFields value s).surround.bounded := by
    unfold controlFields
    split <;> exact h
  simp only [controlWrite]
  split
  · exact settle_bounded _ (by rwa [haltRequest_surround])
  · split
    · exact settle_bounded _ (by rwa [trigger_surround])
    · exact hfields

/-- A load only begins with a BLOCK_BASE write: its link step is a later event (10 R170 R174). -/
theorem baseWrite_bounded (value : Word) : (baseWrite value s).surround.bounded := by
  simp only [baseWrite, startLoad]
  split
  · split
    · exact h
    · rw [readControlBlock_surround, modLoader_surround]
      exact h
  · rwa [setEvent_surround]

/-- The clock set and the windows evaluated: links and FIFO stand (02 R24 R25). -/
theorem evalWindows_clock_bounded (c : Clock) : (evalWindows { s with clock := c }).surround.bounded := by
  rw [evalWindows_surround]
  exact h

/-- The head frame has left its transmitter's queue (05 R99). -/
theorem sentFrame_bounded (k : Fin 4) : (modLink k (fun l => { l with txQueue := l.txQueue.tail }) s).surround.bounded :=
  modLink_bounded k _ s h ((List.tail_sublist _).length_le.trans (h.2 k))

/-- A millisecond counts timers, and at a second's end evaluates the windows. -/
theorem tick_bounded : (tick s).queuesBounded := by
  have hcount : (countTimers s).queuesBounded := countTimers_bounded s h
  simp only [tick]
  split
  · exact hcount
  · exact settle_bounded _ (evalWindows_clock_bounded hcount _)

end Bounds

/-- An event whose work leaves links and FIFO as they stand keeps the bounds through its service. -/
theorem settle_bounded_of_surround {s t : State} (h : t.surround = s.surround) (hs : s.queuesBounded) : (settle t).queuesBounded :=
  settle_bounded t (h ▸ hs)

/-- Every action of the part keeps the bounds. -/
theorem acts_queuesBounded : Acts (fun s t => s.queuesBounded → t.queuesBounded) where
  stays _ := id
  release _ := id
  select _ _ := id
  events _ _ := id
  mask _ _ := id
  control _ value h := controlWrite_bounded h value
  base _ value h := settle_bounded _ (baseWrite_bounded h value)
  mark s value h := settle_bounded _ (markWrite_bounded value s h)
  time _ _ h := settle_bounded _ (evalWindows_clock_bounded h _)
  response s data := busResponse_bounded data s
  fault s := faultAccess_bounded s
  second _ h := settle_bounded _ (evalWindows_clock_bounded h _)
  settled s w := settle_bounded_of_surround (settleCheck_surround w s)
  lost s k := signalLost_bounded k s
  lostServed s k h := settle_bounded _ (signalLost_bounded k s h)
  present s k := signalPresent_bounded k s
  presentServed s k h := settle_bounded _ (signalPresent_bounded k s h)
  holdOff s k h := settle_bounded _ (holdOffExpires_bounded k s h)
  sent _ k h := sentFrame_bounded h k
  frame s k bs h := settle_bounded _ (receiveFrame_bounded k bs s h)
  gap s k := settle_bounded_of_surround (modSched_surround k _ s)
  timeout s i := settle_bounded_of_surround (timeoutEntry_surround i s)
  backoff s i := settle_bounded_of_surround (backoffDone_surround i s)
  aligned s := settle_bounded_of_surround (finishAlignment_surround s)
  polled s := settle_bounded_of_surround (poll_surround s)

end Sys2Proof.Machine

open Sys2Proof Sys2Proof.Machine

/-- Settles O58: the hold empties the queues, and every action and every millisecond keeps the bounds. -/
theorem everyStepKeepsTheQueuesBounded : Obligations.EveryStepKeepsTheQueuesBounded :=
  step_keeps State.queuesBounded acts_queuesBounded (fun _ _ => id) (fun s _ => hold_bounded s) (fun _ => tick_bounded)

end

section
/-! PROOF. Frames sent and received (05 R99 R101 to R104): each is one change of one link, a frame accepted one of the FIFO too. -/

namespace Sys2Proof.Machine

/-! ### One link changed -/

theorem modLink_link_same (k : Fin 4) (f : Link → Link) (s : State) : (modLink k f s).link k = f (s.link k) :=
  (modLink_link k k f s).trans (if_pos rfl)

theorem modLink_link_other (k j : Fin 4) (f : Link → Link) (s : State) (hj : j ≠ k) : (modLink k f s).link j = s.link j :=
  (modLink_link k j f s).trans (if_neg hj)

/-! ### A frame received (05 R101 to R104) -/

section Received

variable (k : Fin 4) (frame : List Byte) (s : State)

theorem receiveFrame_rejects (h : echoOk frame = false) :
    receiveFrame k frame s = modCounters k (fun c => { c with rejected := bump c.rejected }) s := by
  simp [receiveFrame, h]

theorem receiveFrame_accepts (h : echoOk frame = true) (hroom : s.fifo.length < 16) : receiveFrame k frame s =
    modCounters k (fun c => { c with accepted := bump c.accepted }) { s with fifo := s.fifo ++ [echoItem k frame] } := by
  simp [receiveFrame, h, hroom]

theorem receiveFrame_drops (h : echoOk frame = true) (hfull : 16 ≤ s.fifo.length) :
    receiveFrame k frame s = modCounters k (fun c => { c with dropped := bump c.dropped }) s := by
  simp [receiveFrame, h, Nat.not_lt.2 hfull]

/-- A frame taken to the checks is counted on its link, and the FIFO is all else that it may change. -/
theorem receiveFrame_counts : ∃ (f : LinkCounters → LinkCounters) (l : List Echo),
    receiveFrame k frame s = modCounters k f { s with fifo := l } := by
  cases h : echoOk frame with
  | false => exact ⟨_, s.fifo, receiveFrame_rejects k frame s h⟩
  | true =>
    rcases Nat.lt_or_ge s.fifo.length 16 with hroom | hfull
    · exact ⟨_, _, receiveFrame_accepts k frame s h hroom⟩
    · exact ⟨_, s.fifo, receiveFrame_drops k frame s h hfull⟩

theorem frameReceived_idle (h : s.run ≠ .running ∨ (s.link k).state ≠ .up) : exec (.frameReceived k frame) s = .next s := by
  have hnot : ¬ (decide (s.run = .running) && s.linkUp k) = true := by
    simpa [State.linkUp, imp_iff_not_or] using h
  exact congrArg Host.Outcome.next (if_neg hnot)

theorem frameReceived_taken (hrun : s.run = .running) (hup : (s.link k).state = .up) :
    exec (.frameReceived k frame) s = .next (settle (receiveFrame k frame s)) :=
  congrArg Host.Outcome.next (if_pos (by simp [State.linkUp, hrun, hup]))

end Received

end Sys2Proof.Machine

open Sys2Proof Sys2Proof.Machine

/-- Settles O24: a frame sent is one change of its link; a frame received is one of the three counts of `receiveFrame`. -/
theorem framesSentAndReceived : Obligations.FramesSentAndReceived := by
  refine ⟨fun k s => ⟨_, rfl, fun frame rest h => ?_, fun h => ?_, fun j => modLink_link_other k j _ s, rfl⟩,
    fun k frame s => ⟨frameReceived_idle k frame s, fun hrun hup => ?_⟩⟩
  · rw [modLink_link_same, h]
    rfl
  · rw [modLink_link_same, h, List.tail_nil, ← h]
  · obtain ⟨f, l, hcount⟩ := receiveFrame_counts k frame s
    obtain ⟨hhost, hbytes⟩ := settle_keeps (s := s) (u := receiveFrame k frame s) (receiveFrame_host k frame s)
    refine ⟨_, frameReceived_taken k frame s hrun hup, ?_, fun j hj => ?_, hhost, hbytes, fun h => ?_, fun h hroom => ?_,
      fun h hfull => ?_⟩
    · rw [hcount]
      rfl
    · rw [hcount]
      exact modLink_link_other k j _ _ hj
    · rw [receiveFrame_rejects k frame s h]
      exact ⟨rfl, modLink_link_same k _ s⟩
    · rw [receiveFrame_accepts k frame s h hroom]
      exact ⟨rfl, modLink_link_same k _ _⟩
    · rw [receiveFrame_drops k frame s h hfull]
      exact ⟨rfl, modLink_link_same k _ s⟩

end

section
/-! PROOF. The link monitor (05 R94 R95 R97 R98 R100 R106): its signal events as one change of the link with the state field written
where the state moves, and the end of its hold-off. -/

namespace Sys2Proof.Machine

/-! ### The state field (05 R98) -/

/-- What a link's requester is handed when its state field is written: the word in LOADING and RUNNING, else nothing. -/
def stateFieldWrite (s : State) (k : Fin 4) (st : LinkState) : List Access :=
  if s.run = .loading ∨ s.run = .running
  then [⟨addrOf s.params.controlBlock (0x110 + 24 * k.val), some (field st.code 2 0), .plain⟩] else []

section Report

variable (k : Fin 4) (s : State)

theorem linkStateReport_frame : linkStateReport k s = { s with master := (linkStateReport k s).master } := by
  unfold linkStateReport
  split <;> rfl

theorem linkStateReport_queue :
    (linkStateReport k s).queue (.link k) = s.queue (.link k) ++ stateFieldWrite s k (s.link k).state := by
  unfold linkStateReport stateFieldWrite
  split
  · exact hand_queue (.link k) _ s
  · exact (List.append_nil _).symm

theorem linkStateReport_queue_other (r : Requester) (hr : r ≠ .link k) : (linkStateReport k s).queue r = s.queue r := by
  unfold linkStateReport
  split
  · exact (hand_queue_of (.link k) r _ s).trans (if_neg hr)
  · rfl

end Report

/-! ### A monitor's move at a signal event (05 R94 R95 R100) -/

/-- A link changed, with its state field written where its state is another than before. -/
def moveMonitor (k : Fin 4) (f : Link → Link) (s : State) : State :=
  if (f (s.link k)).state = (s.link k).state then modLink k f s else linkStateReport k (modLink k f s)

theorem moveMonitor_effect (k : Fin 4) (f : Link → Link) (s : State) :
    let u := moveMonitor k f s
    u = { s with links := u.links, master := u.master } ∧ (∀ j, j ≠ k → u.link j = s.link j) ∧ u.link k = f (s.link k) ∧
    u.queue (.link k) = s.queue (.link k) ++
      (if (u.link k).state = (s.link k).state then [] else stateFieldWrite s k (u.link k).state) ∧
    (∀ r, r ≠ .link k → u.queue r = s.queue r) := by
  intro u
  have hlinks : u.links = (modLink k f s).links := by
    simp only [u, moveMonitor]
    split
    · rfl
    · rw [linkStateReport_frame]
  have hlink : ∀ j, u.link j = (modLink k f s).link j := fun j => congrArg (fun v => v.get j) hlinks
  have hk : u.link k = f (s.link k) := (hlink k).trans (modLink_link_same k f s)
  refine ⟨?_, fun j hj => (hlink j).trans (modLink_link_other k j f s hj), hk, ?_, fun r hr => ?_⟩
  · rw [hlinks]
    simp only [u, moveMonitor]
    split
    · rfl
    · exact linkStateReport_frame k _
  · rw [hk]
    simp only [u, moveMonitor]
    split
    · exact (List.append_nil _).symm
    · rw [linkStateReport_queue, modLink_link_same]
      rfl
  · simp only [u, moveMonitor]
    split
    · rfl
    · exact linkStateReport_queue_other k _ r hr

theorem modLink_congr {k : Fin 4} {f g : Link → Link} {s : State} (h : f (s.link k) = g (s.link k)) :
    modLink k f s = modLink k g s := by
  rw [modLink, h]
  rfl

/-- Two changes of one link are one. -/
theorem modLink_modLink (k : Fin 4) (f g : Link → Link) (s : State) : modLink k f (modLink k g s) = modLink k (fun l => f (g l)) s := by
  simp only [modLink, vput_vput, State.link, vput_get_same]

/-- A change of a link that stands before its monitor's move is part of the move. -/
theorem monitorTo_eq_moveMonitor {k : Fin 4} {s : State} {f g : Link → Link} {st : LinkState} {timer : Option Nat}
    (hst : (f (s.link k)).state ≠ (s.link k).state) (h : { g (s.link k) with state := st, holdOff := timer } = f (s.link k)) :
    monitorTo k st timer (modLink k g s) = moveMonitor k f s := by
  rw [moveMonitor, if_neg hst, monitorTo, modLink_modLink]
  exact congrArg (linkStateReport k) (modLink_congr h)

theorem modLink_eq_moveMonitor {k : Fin 4} {s : State} {f g : Link → Link}
    (hst : (f (s.link k)).state = (s.link k).state) (h : g (s.link k) = f (s.link k)) : modLink k g s = moveMonitor k f s := by
  rw [moveMonitor, if_pos hst]
  exact modLink_congr h

/-- A link whose monitor loses its signal, with the hold-off of the link in ms (05 R94 R95 R100). -/
def Link.loseSignal (holdOff : Nat) (l : Link) : Link :=
  { l with
    signal := false, txQueue := []
    state := if l.state = .up then .failing else if l.state = .restoring then .down else l.state
    holdOff := if l.state = .up then some holdOff else if l.state = .restoring then none else l.holdOff }

/-- A link whose monitor finds its signal again (05 R94 R95). -/
def Link.findSignal (holdOff : Nat) (l : Link) : Link :=
  { l with
    signal := true
    state := if l.state = .failing then .up else if l.state = .down then .restoring else l.state
    holdOff := if l.state = .failing then none else if l.state = .down then some holdOff else l.holdOff }

section Signal

variable {k : Fin 4} {s : State}

theorem started_of_monitorActs (h : monitorActs s k = true) : (s.link k).started = true := by
  simp only [monitorActs, Bool.and_eq_true] at h
  exact h.1.1

/-- The monitor acts: a lost signal is one move of it (05 R94 R95 R100). -/
theorem signalLost_acts (h : monitorActs s k = true) :
    signalLost k s = moveMonitor k (Link.loseSignal (holdOffMs s k)) s := by
  have hstarted := started_of_monitorActs h
  simp only [signalLost, h, if_true]
  cases hst : (s.link k).state with
  | up | restoring => exact monitorTo_eq_moveMonitor (by simp [Link.loseSignal, hst]) (by simp [Link.loseSignal, hst, hstarted])
  | failing | down => exact modLink_eq_moveMonitor (by simp [Link.loseSignal, hst]) (by simp [Link.loseSignal, hst, hstarted])

/-- The monitor acts: a signal found again is one move of it (05 R94 R95). -/
theorem signalPresent_acts (h : monitorActs s k = true) :
    signalPresent k s = moveMonitor k (Link.findSignal (holdOffMs s k)) s := by
  simp only [signalPresent, h, if_true]
  cases hst : (s.link k).state with
  | failing | down => exact monitorTo_eq_moveMonitor (by simp [Link.findSignal, hst]) (by simp [Link.findSignal, hst])
  | up | restoring => exact modLink_eq_moveMonitor (by simp [Link.findSignal, hst]) (by simp [Link.findSignal, hst])

theorem signalLost_rests (h : monitorActs s k = false) :
    signalLost k s = modLink k (fun l => { l with signal := false, txQueue := if l.started then [] else l.txQueue }) s := by
  simp [signalLost, h]

theorem signalPresent_rests (h : monitorActs s k = false) : signalPresent k s = modLink k (fun l => { l with signal := true }) s := by
  simp [signalPresent, h]

/-! ### The signal commands -/

theorem exec_signalLost (hheld : s.held = false) (h : (s.link k).signal = true) :
    exec (.signalLost k) s = .next (settle (signalLost k s)) := by
  refine congrArg Host.Outcome.next ((if_pos h).trans (if_neg ?_))
  simp [hheld]

theorem exec_signalPresent (hheld : s.held = false) (h : (s.link k).signal = false) :
    exec (.signalPresent k) s = .next (settle (signalPresent k s)) := by
  refine congrArg Host.Outcome.next ((if_pos ?_).trans (if_neg ?_))
  · simp [h]
  · simp [hheld]

end Signal

/-! ### The end of a hold-off (05 R94 R95 R98) -/

/-- Work that changes the Probe Table alone. -/
def ProbeWork (s t : State) : Prop := t = { s with probes := t.probes }

theorem ProbeWork.trans {s t u : State} (h : ProbeWork s t) (k : ProbeWork t u) : ProbeWork s u := by
  unfold ProbeWork at h k ⊢
  exact k.trans (by rw [h])

theorem foldl_probeWork {α : Type} (f : State → α → State) (h : ∀ t a, ProbeWork t (f t a)) (l : List α) (s : State) :
    ProbeWork s (l.foldl f s) := by
  induction l generalizing s with
  | nil => exact rfl
  | cons a l ih => exact (h s a).trans (ih (f s a))

theorem entryLinkDown_probeWork (k : Fin 4) (s : State) (i : Fin 64) : ProbeWork s (entryLinkDown k s i) := by
  unfold entryLinkDown
  simp only []
  (repeat' split) <;> exact rfl

theorem linkWentDown_probeWork (k : Fin 4) (s : State) : ProbeWork s (linkWentDown k s) :=
  foldl_probeWork _ (entryLinkDown_probeWork k) _ s

theorem entryLinkUp_probeWork (j k : Fin 4) (s : State) (i : Fin 64) : ProbeWork s (entryLinkUp j k s i) := by
  unfold entryLinkUp
  split <;> exact rfl

theorem moveFrom_probeWork (k : Fin 4) (s : State) (j : Fin 4) : ProbeWork s (moveFrom k s j) := by
  unfold moveFrom
  split
  · exact rfl
  · exact foldl_probeWork _ (entryLinkUp_probeWork j k) _ s

theorem linkBecameUp_probeWork (k : Fin 4) (s : State) : ProbeWork s (linkBecameUp k s) :=
  foldl_probeWork _ (moveFrom_probeWork k) _ s

/-- The monitor's link once its hold-off has run out: in its next state, with no timer (05 R94 R95). -/
def monitorAfter (k : Fin 4) (st : LinkState) (s : State) : State := modLink k (fun l => { l with state := st, holdOff := none }) s

theorem monitorAfter_link (k : Fin 4) (st : LinkState) (s : State) :
    (monitorAfter k st s).link k = { s.link k with state := st, holdOff := none } := modLink_link_same k _ s

/-- What a reported change does where the Probe Table's work on it reaches nothing else (05 R98). -/
theorem reportChange_effect (k : Fin 4) (st : LinkState) (act : State → State) (hact : ∀ t, ProbeWork t (act t)) (s : State) :
    let moved := monitorAfter k st s
    let u := reportChange k act moved
    u.hasEvent .linkChange = true ∧ (∀ e, e ≠ .linkChange → u.hasEvent e = s.hasEvent e) ∧
    u.regs = { s.regs with events := u.regs.events } ∧
    u = { s with links := moved.links, master := u.master, regs := u.regs, probes := u.probes } ∧
    u.probes = (if s.run ≠ .running then s else act moved).probes ∧
    u.queue (.link k) = s.queue (.link k) ++ stateFieldWrite s k st ∧ (∀ r, r ≠ .link k → u.queue r = s.queue r) := by
  intro moved u
  let told := setEvent .linkChange { moved with probes := (if s.run ≠ .running then s else act moved).probes }
  have hacted : (if s.run = .running then act moved else moved) =
      { moved with probes := (if s.run ≠ .running then s else act moved).probes } := by
    by_cases hrun : s.run = .running
    · rw [if_pos hrun, if_neg (not_not.2 hrun)]
      exact hact moved
    · rw [if_neg hrun, if_pos hrun]
      rfl
  have hu : u = linkStateReport k told := congrArg (fun t => linkStateReport k (setEvent .linkChange t)) hacted
  have hframe : u = { told with master := u.master } := hu ▸ linkStateReport_frame k told
  have hregs : u.regs = told.regs := congrArg (·.regs) hframe
  have hevent : ∀ e, u.hasEvent e = (decide (.linkChange = e) || s.hasEvent e) := fun e =>
    (congrArg (fun r : Regs => r.events.getLsbD e.index) hregs).trans (setEvent_hasEvent .linkChange e _)
  refine ⟨(hevent _).trans (by simp), fun e he => (hevent e).trans (by simp [he.symm]), ?_, ?_, congrArg (·.probes) hframe, ?_,
    fun r hr => ?_⟩
  · rw [hregs]
    rfl
  · rw [hregs, hframe]
    rfl
  · have hlink : (told.link k).state = st := congrArg Link.state (monitorAfter_link k st s)
    rw [hu, linkStateReport_queue, hlink]
    rfl
  · rw [hu]
    exact linkStateReport_queue_other k told r hr

section Expiry

variable {k : Fin 4} {s : State}

theorem exec_holdOffExpiry (hm : monitorActs s k = true) (hst : (s.link k).state = .failing ∨ (s.link k).state = .restoring)
    (ht : (s.link k).holdOff.isSome = true) : exec (.holdOffExpiry k) s = .next (settle (holdOffExpires k s)) := by
  have hruns : holdOffRuns s k = true := by
    simp only [monitorActs, Bool.and_eq_true] at hm
    simp [holdOffRuns, hm, ht, hst]
  exact congrArg Host.Outcome.next (if_pos hruns)

theorem holdOffExpires_failing (h : (s.link k).state = .failing) :
    holdOffExpires k s = reportChange k (linkWentDown k) (monitorAfter k .down s) := by
  simp only [holdOffExpires, h, monitorAfter]

theorem holdOffExpires_restoring (h : (s.link k).state = .restoring) :
    holdOffExpires k s = reportChange k (linkBecameUp k) (monitorAfter k .up s) := by
  simp only [holdOffExpires, h, monitorAfter]

end Expiry

end Sys2Proof.Machine

open Sys2Proof Sys2Proof.Machine

/-- Settles O23: a signal event of a monitor that acts is one `moveMonitor`; the end of its hold-off is one reported change, on which the
Probe Table alone works. -/
theorem linkMonitorFollowsItsSignal : Obligations.LinkMonitorFollowsItsSignal := by
  intro k s hheld full report
  refine ⟨fun hm => ⟨fun hsig => ?_, fun hsig => ?_, fun st hst hmoves ht => ?_⟩, fun hm => ⟨fun hsig => ?_, fun hsig => ?_⟩⟩
  · obtain ⟨hframe, hothers, hlink, hqueue, hqueues⟩ := moveMonitor_effect k (Link.loseSignal (holdOffMs s k)) s
    rw [exec_signalLost hheld hsig, signalLost_acts hm]
    exact ⟨_, rfl, hframe, hothers, hlink, hqueue, hqueues, settle_keeps (congrArg (·.hostSide) hframe)⟩
  · obtain ⟨hframe, hothers, hlink, hqueue, hqueues⟩ := moveMonitor_effect k (Link.findSignal (holdOffMs s k)) s
    rw [exec_signalPresent hheld hsig, signalPresent_acts hm]
    exact ⟨_, rfl, hframe, hothers, hlink, hqueue, hqueues, settle_keeps (congrArg (·.hostSide) hframe)⟩
  · intro after moved
    have hexec := exec_holdOffExpiry hm (hst ▸ hmoves) ht
    have hkeeps := settle_keeps (s := s) (u := holdOffExpires k s) (holdOffExpires_host k s)
    rcases hmoves with rfl | rfl
    · rw [holdOffExpires_failing hst] at hexec hkeeps
      obtain ⟨hset, hstand, hregs, hframe, hprobes, hqueue, hqueues⟩ :=
        reportChange_effect k .down (linkWentDown k) (linkWentDown_probeWork k) s
      exact ⟨_, hexec, hset, hstand, hregs, hframe, hprobes, hqueue, hqueues, hkeeps⟩
    · rw [holdOffExpires_restoring hst] at hexec hkeeps
      obtain ⟨hset, hstand, hregs, hframe, hprobes, hqueue, hqueues⟩ :=
        reportChange_effect k .up (linkBecameUp k) (linkBecameUp_probeWork k) s
      exact ⟨_, hexec, hset, hstand, hregs, hframe, hprobes, hqueue, hqueues, hkeeps⟩
  · rw [exec_signalLost hheld hsig, signalLost_rests hm]
  · rw [exec_signalPresent hheld hsig, signalPresent_rests hm]

end

section
/-! PROOF. The frame check (05 R102, 11 R185): the ones'-complement sum of a frame that ends in the complement of its own sum, the fields of
a PROBE frame, and what the five checks of an echo let through. -/

namespace Sys2Proof.Machine

/-! ### The ones'-complement sum (05 R102) -/

theorem onesAdd_le {a b : Nat} (ha : a ≤ 0xFFFF) (hb : b ≤ 0xFFFF) : onesAdd a b ≤ 0xFFFF := by
  unfold onesAdd
  split <;> omega

theorem onesAdd_complement {a : Nat} (ha : a ≤ 0xFFFF) : onesAdd a (0xFFFF - a) = 0xFFFF := by
  unfold onesAdd
  split <;> omega

/-- A frame's words are of 16 bits, a last odd byte's too. -/
theorem frameWords_le (bs : List Byte) : ∀ w ∈ frameWords bs, w ≤ 0xFFFF := by
  induction bs using frameWords.induct with
  | case1 => simp [frameWords]
  | case2 a =>
    have ha := a.isLt
    simp only [frameWords, List.mem_singleton, forall_eq]
    omega
  | case3 a b rest ih =>
    have ha := a.isLt
    have hb := b.isLt
    simp only [frameWords, List.mem_cons, forall_eq_or_imp]
    exact ⟨by omega, ih⟩

theorem foldl_onesAdd_le (ws : List Nat) (a : Nat) (ha : a ≤ 0xFFFF) (hws : ∀ w ∈ ws, w ≤ 0xFFFF) :
    ws.foldl onesAdd a ≤ 0xFFFF := by
  induction ws generalizing a with
  | nil => exact ha
  | cons w ws ih =>
    obtain ⟨hw, hrest⟩ := List.forall_mem_cons.1 hws
    exact ih _ (onesAdd_le ha hw) hrest

theorem frameSum_le (bs : List Byte) : frameSum bs ≤ 0xFFFF := foldl_onesAdd_le _ 0 (Nat.zero_le _) (frameWords_le bs)

/-- Behind an even number of bytes the pairs begin anew. -/
theorem frameWords_append (bs cs : List Byte) (h : bs.length % 2 = 0) : frameWords (bs ++ cs) = frameWords bs ++ frameWords cs := by
  induction bs using frameWords.induct with
  | case1 => rfl
  | case2 a => simp at h
  | case3 a b rest ih =>
    have hrest : rest.length % 2 = 0 := by
      simp only [List.length_cons] at h
      omega
    simp only [List.cons_append, frameWords, ih hrest]

/-- The two bytes of a 16-bit field are its halves. -/
theorem halfBytes_value {n : Nat} (h : n < 65536) : (BitVec.ofNat 8 (n / 256)).toNat * 256 + (BitVec.ofNat 8 n).toNat = n := by
  simp only [BitVec.toNat_ofNat]
  omega

theorem frameWords_halfBytes {n : Nat} (h : n < 65536) : frameWords (halfBytes n) = [n] := by
  simp only [halfBytes, frameWords, halfBytes_value h]

/-- A frame of an even number of bytes behind which the complement of its sum stands passes the frame check. -/
theorem frameSum_append_check (bs : List Byte) (h : bs.length % 2 = 0) :
    frameSum (bs ++ halfBytes (0xFFFF - frameSum bs)) = 0xFFFF := by
  have hcheck : 0xFFFF - frameSum bs < 65536 := by omega
  calc frameSum (bs ++ halfBytes (0xFFFF - frameSum bs))
      = onesAdd (frameSum bs) (0xFFFF - frameSum bs) := by
        rw [frameSum, frameWords_append bs _ h, frameWords_halfBytes hcheck, List.foldl_append]
        rfl
    _ = 0xFFFF := onesAdd_complement (frameSum_le bs)

/-! ### The PROBE frame (11 R185) -/

section Probe

variable (own tag head trail : Nat)

/-- The check word stands behind twelve bytes. -/
theorem probeHead_length : (probeHead own tag head trail).length = 12 := rfl

theorem probeFrame_length : (probeFrame own tag head trail).length = 14 := rfl

theorem probeFrame_check : frameSum (probeFrame own tag head trail) = 0xFFFF :=
  frameSum_append_check _ (by rw [probeHead_length])

variable {own tag head trail}

theorem probeFrame_own (h : own < 65536) : frameHalf (probeFrame own tag head trail) 2 = own := halfBytes_value h

theorem probeFrame_tag (h : tag < 65536) : frameHalf (probeFrame own tag head trail) 4 = tag := halfBytes_value h

theorem probeFrame_head (h : head < 65536) : frameHalf (probeFrame own tag head trail) 6 = head := halfBytes_value h

theorem probeFrame_trail (h : trail < 16777216) :
    let f := probeFrame own tag head trail
    frameByte f 8 * 65536 + frameByte f 9 * 256 + frameByte f 10 = trail := by
  intro f
  show (BitVec.ofNat 8 (trail / 65536)).toNat * 65536 + (BitVec.ofNat 8 (trail / 256)).toNat * 256 + (BitVec.ofNat 8 trail).toNat = trail
  simp only [BitVec.toNat_ofNat]
  omega

end Probe

/-! ### The checks of an echo (05 R102 R103) -/

theorem echoOk_iff (bs : List Byte) : echoOk bs = true ↔ frameSum bs = 0xFFFF ∧ frameByte bs 0 = 2 ∧ frameByte bs 12 ≤ 40 ∧
    (frameByte bs 12 = 0 → frameByte bs 1 % 2 = 1) ∧ bs.length = 16 + 10 * frameByte bs 12 := by
  simp [echoOk, and_assoc, imp_iff_not_or]

theorem clampInt_bounds {lo hi : Int} (h : lo ≤ hi) (i : Int) : lo ≤ clampInt lo hi i ∧ clampInt lo hi i ≤ hi :=
  ⟨Int.le_max_left _ _, Int.max_le.2 ⟨h, Int.min_le_left _ _⟩⟩

/-- A power of an echo item is unknown or lies in its range (05 R103). -/
theorem clampPower_range (n : Nat) : clampPower n = -32768 ∨ (-5000 ≤ clampPower n ∧ clampPower n ≤ 2500) := by
  by_cases h : signed16 n = -32768
  · exact .inl ((if_pos h).trans h)
  · rw [show clampPower n = clampInt (-5000) 2500 (signed16 n) from if_neg h]
    exact .inr (clampInt_bounds (by decide) _)

theorem echoItem_stamps (k : Fin 4) (bs : List Byte) :
    (echoItem k bs).stamps = (List.range (frameByte bs 12)).map (stampAt bs) := rfl

end Sys2Proof.Machine

open Sys2Proof Sys2Proof.Machine

/-- Settles O25: a PROBE frame is an even number of bytes with the complement of their sum behind them; every power of an echo's stamps is
a `clampPower`. -/
theorem framesPassTheFrameCheck : Obligations.FramesPassTheFrameCheck := by
  refine ⟨fun k frame => ⟨echoOk_iff frame, ?_, rfl, fun o ho => ?_⟩, fun own tag head trail hown htag hhead htrail => ?_⟩
  · rw [echoItem_stamps, List.length_map, List.length_range]
  · rw [echoItem_stamps] at ho
    obtain ⟨i, -, rfl⟩ := List.mem_map.1 ho
    exact ⟨clampPower_range _, clampPower_range _⟩
  · exact ⟨probeFrame_length own tag head trail, rfl, probeFrame_own hown, probeFrame_tag htag, probeFrame_head hhead,
      probeFrame_trail htrail, probeFrame_check own tag head trail⟩

end

section
/-! PROOF. The takes of the Comparator (06 R108 R109, 04 R81 R82): a take moves one item off its source; a held item changes its entry, the
Comparator and the queue of custody requests, a stale echo its link's counter. -/

namespace Sys2Proof.Machine

/-! ### An entry becomes COMPARING (04 R81 R82) -/

section Comparing

variable (i : Fin 64) (s : State)

theorem toComparing_frame : toComparing i s = { s with probes := (toComparing i s).probes } := by
  unfold toComparing modEntry
  rw [dequeueIfQueued_frame]

theorem toComparing_entry (j : Fin 64) : (toComparing i s).entry j =
    if j = i then { s.entry i with state := .comparing, timer := none, outcome := none } else s.entry j := by
  simp only [toComparing, modEntry_entry, dequeueIfQueued_entry]

theorem dequeueIfQueued_outcomes : (dequeueIfQueued i s).probes.outcomes = s.probes.outcomes := by
  unfold dequeueIfQueued
  split <;> rfl

theorem toComparing_outcomes : (toComparing i s).probes.outcomes = s.probes.outcomes := dequeueIfQueued_outcomes i s

theorem toComparing_unqueued (h : (s.entry i).state ≠ .queued) : (toComparing i s).probes.scheds = s.probes.scheds := by
  have hstays : dequeueIfQueued i s = s := if_neg h
  rw [toComparing, hstays]
  rfl

/-- A QUEUED entry that becomes COMPARING leaves its launch queue, and no other queue is changed. -/
theorem toComparing_queued (h : (s.entry i).state = .queued) :
    ((toComparing i s).launchSched (s.entry i).link).queueOf (s.entry i).cls =
      ((s.launchSched (s.entry i).link).queueOf (s.entry i).cls).erase i ∧
    ((toComparing i s).launchSched (s.entry i).link).queueOf (s.entry i).cls.other =
      (s.launchSched (s.entry i).link).queueOf (s.entry i).cls.other ∧
    ∀ k, k ≠ (s.entry i).link → (toComparing i s).launchSched k = s.launchSched k := by
  have hleaves : dequeueIfQueued i s = dequeue i s := if_pos h
  simp only [toComparing, modEntry_launchSched, hleaves]
  exact ⟨dequeue_queueOf i s, dequeue_queueOf_other i s _, fun k hk => (dequeue_launchSched i k s).trans (if_neg hk)⟩

end Comparing

/-! ### An item held (06 R109 R111) -/

/-- A held item reaches the Probe Table, the Comparator and the queue of custody requests. -/
theorem holdItem_eq (i : Fin 64) (ev : Evidence) (s : State) : holdItem ⟨i, ev⟩ s = { s with
    probes := (toComparing i s).probes
    cmp := { s.cmp with phase := .custody, item := some ⟨i, ev⟩ }
    custody := { s.custody with queue := s.custody.queue ++ [(s.eventNo, .compare i (s.entry i).circuit)] } } := by
  unfold holdItem
  rw [toComparing_frame]
  rfl

/-- An item off its source: what is left in the FIFO and in the Outcome List, and which of the two was served last (06 R108). -/
def itemOff (fifo : List Echo) (outcomes : List (Fin 64)) (last : Bool) (s : State) : State :=
  { s with fifo := fifo, probes := { s.probes with outcomes := outcomes }, cmp := { s.cmp with lastOutcome := last } }

/-- From `s` to `t` the Comparator takes item `i` into CUSTODY and marks its source as served last: the entry becomes COMPARING, leaving
its queue, and the item's custody action is asked for. -/
def TakesItem (s t : State) (i : Fin 64) (ev : Evidence) (last : Bool) : Prop :=
  let x := s.entry i
  t = { s with cmp := t.cmp, probes := t.probes, custody := t.custody, fifo := t.fifo } ∧
  t.cmp = { s.cmp with phase := .custody, item := some ⟨i, ev⟩, lastOutcome := last } ∧
  t.entry i = { x with state := .comparing, timer := none, outcome := none } ∧ (∀ j, j ≠ i → t.entry j = s.entry j) ∧
  t.custody = { s.custody with queue := s.custody.queue ++ [(s.eventNo, .compare i x.circuit)] } ∧
  (x.state ≠ .queued → t.probes.scheds = s.probes.scheds) ∧
  (x.state = .queued → (t.launchSched x.link).queueOf x.cls = ((s.launchSched x.link).queueOf x.cls).erase i ∧
    (t.launchSched x.link).queueOf x.cls.other = (s.launchSched x.link).queueOf x.cls.other ∧
    ∀ k, k ≠ x.link → t.launchSched k = s.launchSched k)

theorem holdItem_takes (fifo : List Echo) (outcomes : List (Fin 64)) (last : Bool) (i : Fin 64) (ev : Evidence) (s : State) :
    let t := holdItem ⟨i, ev⟩ (itemOff fifo outcomes last s)
    t.fifo = fifo ∧ t.probes.outcomes = outcomes ∧ TakesItem s t i ev last := by
  have hentry := toComparing_entry i (itemOff fifo outcomes last s)
  intro t
  have ht : t = _ := holdItem_eq i ev (itemOff fifo outcomes last s)
  rw [ht]
  exact ⟨rfl, toComparing_outcomes i _, rfl, rfl, (hentry i).trans (if_pos rfl), fun j hj => (hentry j).trans (if_neg hj), rfl,
    toComparing_unqueued i (itemOff fifo outcomes last s), toComparing_queued i (itemOff fifo outcomes last s)⟩

/-! ### A take from the FIFO (06 R109) -/

theorem echoMatches_iff (e : Echo) (x : Entry) : echoMatches e x = true ↔ x.generation = e.tag / 64 ∧ x.trail = e.trail ∧
    (x.state = .waiting ∨ x.state = .backoff ∨ (x.state = .queued ∧ 1 ≤ x.attempts)) := by
  simp [echoMatches, and_assoc, or_assoc]

theorem takeEcho_held (e : Echo) (rest : List Echo) (s : State) (h : echoMatches e (s.entry (tagSlot e.tag)) = true) :
    takeEcho e rest s = holdItem ⟨tagSlot e.tag, .echo e⟩ (itemOff rest s.probes.outcomes false s) := if_pos h

theorem takeEcho_stale (e : Echo) (rest : List Echo) (s : State) (h : ¬ echoMatches e (s.entry (tagSlot e.tag)) = true) :
    takeEcho e rest s =
      modCounters e.link (fun c => { c with stale := bump c.stale }) (itemOff rest s.probes.outcomes false s) := if_neg h

/-! ### A take from the Outcome List (04 R82) -/

theorem takeOutcome_held (i : Fin 64) (rest : List (Fin 64)) (o : Conclusion) (s : State) (h : (s.entry i).outcome = some o) :
    takeOutcome i rest s = holdItem ⟨i, .outcome o⟩ (itemOff s.fifo rest true s) := by
  simp only [takeOutcome, h]
  rfl

/-! ### The source of a take (06 R108) -/

section Source

variable {s : State}

theorem takeOne_nothing (hf : s.fifo = []) (ho : s.probes.outcomes = []) : takeOne s = s := by
  simp [takeOne, hf, ho]

theorem takeOne_echo {e : Echo} {rest : List Echo} (hf : s.fifo = e :: rest)
    (h : s.probes.outcomes = [] ∨ s.cmp.lastOutcome = true) : takeOne s = takeEcho e rest s := by
  cases ho : s.probes.outcomes with
  | nil => simp [takeOne, hf, ho]
  | cons i is =>
    have hlast : s.cmp.lastOutcome = true := h.resolve_left (by simp [ho])
    simp [takeOne, hf, ho, hlast]

theorem takeOne_outcome {i : Fin 64} {rest : List (Fin 64)} (ho : s.probes.outcomes = i :: rest)
    (h : s.fifo = [] ∨ s.cmp.lastOutcome = false) : takeOne s = takeOutcome i rest s := by
  cases hf : s.fifo with
  | nil => simp [takeOne, hf, ho]
  | cons e es =>
    have hlast : s.cmp.lastOutcome = false := h.resolve_left (by simp [hf])
    simp [takeOne, hf, ho, hlast]

theorem takeLoop_takes (n : Nat) (hr : s.run = .running) (hp : s.cmp.phase = .idle) : takeLoop (n + 1) s = takeLoop n (takeOne s) :=
  if_pos ⟨hr, hp⟩

theorem takeLoop_rests (n : Nat) (h : s.run ≠ .running ∨ s.cmp.phase ≠ .idle) : takeLoop n s = s := by
  cases n with
  | zero => rfl
  | succ n => exact if_neg fun ⟨hr, hp⟩ => h.elim (· hr) (· hp)

/-- The takes of an event without an item to take. -/
theorem serveComparator_nothing (hf : s.fifo = []) (ho : s.probes.outcomes = []) : serveComparator s = s := by
  simp [serveComparator, hf, takeLoop, takeOne_nothing hf ho]

end Source

end Sys2Proof.Machine

open Sys2Proof Sys2Proof.Machine

/-- Settles O41: a take chooses its source by `takeOne`, and ends in `holdItem` or in the count of a stale echo. -/
theorem comparatorTakesItems : Obligations.ComparatorTakesItems := by
  intro s holds
  refine ⟨?_, fun hr hp => takeLoop_takes _ hr hp, ?_, ?_⟩
  · rintro (hr | hp | ⟨hf, ho⟩)
    · exact takeLoop_rests _ (.inl hr)
    · exact takeLoop_rests _ (.inr hp)
    · exact serveComparator_nothing hf ho
  · intro e rest hf hsource x t fits
    have ht : t = takeEcho e rest s := takeOne_echo hf hsource
    have hslot : (tagSlot e.tag).val = e.tag % 64 := rfl
    by_cases h : echoMatches e x = true
    · obtain ⟨hfifo, houtcomes, htakes⟩ := holdItem_takes rest s.probes.outcomes false (tagSlot e.tag) (.echo e) s
      rw [ht, takeEcho_held e rest s h]
      exact ⟨hslot, hfifo, houtcomes, fun _ => htakes, fun hno => absurd ((echoMatches_iff e x).1 h) hno⟩
    · have hlink := fun k => modLink_link e.link k
        (fun l => { l with counters := { l.counters with stale := bump l.counters.stale } }) (itemOff rest s.probes.outcomes false s)
      rw [ht, takeEcho_stale e rest s h]
      exact ⟨hslot, rfl, rfl, fun hyes => absurd ((echoMatches_iff e x).2 hyes) h,
        fun _ => ⟨rfl, (hlink _).trans (if_pos rfl), fun k hk => (hlink k).trans (if_neg hk)⟩⟩
  · intro i rest o ho hsource hout t
    have ht : t = holdItem ⟨i, .outcome o⟩ (itemOff s.fifo rest true s) :=
      (takeOne_outcome ho hsource).trans (takeOutcome_held i rest o s hout)
    rw [ht]
    exact holdItem_takes s.fifo rest true i (.outcome o) s

end

section
/-! PROOF. The alignment of an echo that repeats the expected sequence (06 R113 to R115): after k stamps the walk has matched the first k
hops, and made no finding. -/

namespace Sys2Proof.Machine

/-- A stamp repeats a hop: node, ports and channel, where channel 127 matches any (06 R114). -/
def Hop.repeatedBy (h : Hop) (o : Stamp) : Prop :=
  o.node = h.node ∧ o.ingress = h.ingress ∧ o.egress = h.egress ∧
  (o.channel = h.attr.channel ∨ o.channel = 127 ∨ h.attr.channel = 127)

/-- The walk that has matched the first `k` hops with the first `k` stamps. -/
def Walk.matched (k : Nat) : Walk := { i := k + 1, pairs := (List.range k).map (fun d => (d + 1, d + 1)) }

/-- The first hop with a node is the only one, the nodes being distinct (01 R8). -/
theorem hopPosition_of_nodup (exp : List Hop) (hn : (exp.map (fun h => h.node)).Nodup) (k : Nat) (h : Hop) (hk : exp[k]? = some h)
    (n : Nat) : hopPosition h.node exp n = some (n + k) := by
  induction exp generalizing k n with
  | nil => simp at hk
  | cons g exp ih =>
    obtain ⟨hg, hn⟩ := List.nodup_cons.1 hn
    cases k with
    | zero =>
      obtain rfl : g = h := by simpa using hk
      simp [hopPosition]
    | succ k =>
      have hrest : exp[k]? = some h := by simpa using hk
      have hne : g.node ≠ h.node := fun heq =>
        hg (List.mem_map.2 ⟨h, List.mem_of_getElem? hrest, heq.symm⟩)
      rw [hopPosition, if_neg hne, ih hn k hrest]
      congr 1
      omega

theorem missingFindings_none (exp : List Hop) (k : Nat) : missingFindings exp (k + 1) k = [] := by
  simp [missingFindings]

theorem matchFindings_none (h : Hop) (o : Stamp) (i j : Nat) (hr : h.repeatedBy o) : matchFindings h i j o = [] := by
  obtain ⟨-, hin, hout, hchannel⟩ := hr
  have hports : ¬ (o.ingress ≠ h.ingress ∨ o.egress ≠ h.egress) := by simp [hin, hout]
  have hchannels : ¬ (o.channel ≠ h.attr.channel ∧ o.channel ≠ 127 ∧ h.attr.channel ≠ 127) := by tauto
  rw [matchFindings, if_neg hports, if_neg hchannels]
  rfl

section Repeated

variable (exp : List Hop) (hn : (exp.map (fun h => h.node)).Nodup)

include hn

/-- A stamp that repeats the next hop is matched with it. -/
theorem walkStamp_matched (k : Nat) (h : Hop) (o : Stamp) (hk : exp[k]? = some h) (hr : h.repeatedBy o) :
    walkStamp exp (Walk.matched k) (k + 1) o = Walk.matched (k + 1) := by
  have hpos : hopPosition o.node exp 1 = some (k + 1) := by
    rw [hr.1, hopPosition_of_nodup exp hn k h hk, Nat.add_comm]
  simp [walkStamp, hpos, Walk.matched, hk, missingFindings_none, matchFindings_none h o _ _ hr, List.range_succ]

theorem walkStamps_matched (stamps : List Stamp) (k : Nat)
    (hr : ∀ j o, stamps[j]? = some o → ∃ h, exp[k + j]? = some h ∧ h.repeatedBy o) :
    walkStamps exp (Walk.matched k) (k + 1) stamps = Walk.matched (k + stamps.length) := by
  induction stamps generalizing k with
  | nil => rfl
  | cons o rest ih =>
    obtain ⟨h, hk, ho⟩ := hr 0 o rfl
    have hrest : ∀ j p, rest[j]? = some p → ∃ h, exp[k + 1 + j]? = some h ∧ h.repeatedBy p := fun j p hp => by
      rw [Nat.add_right_comm]
      exact hr (j + 1) p hp
    rw [walkStamps, walkStamp_matched exp hn k h o hk ho, ih (k + 1) hrest, List.length_cons, Nat.add_right_comm, Nat.add_assoc]

end Repeated

theorem endFindings_ended (exp : List Hop) (i : Nat) (e : Echo) (h : exp.length < i) : endFindings exp i e = [] := if_pos h

end Sys2Proof.Machine

open Sys2Proof Sys2Proof.Machine

/-- Settles O43: the walk over the whole echo is `Walk.matched`, by induction on the stamps, and has passed the last hop. -/
theorem matchingEchoGivesNoAlignmentFinding : Obligations.MatchingEchoGivesNoAlignmentFinding := by
  intro expected e hn hlen hmatch
  have hrepeats : ∀ k o, e.stamps[k]? = some o → ∃ h, expected[0 + k]? = some h ∧ h.repeatedBy o := by
    intro k o ho
    obtain ⟨hk, -⟩ := List.getElem?_eq_some_iff.1 ho
    have hh := List.getElem?_eq_getElem (hlen ▸ hk)
    rw [Nat.zero_add]
    exact ⟨_, hh, hmatch k _ o hh ho⟩
  have hwalk : walkStamps expected {} 1 e.stamps = Walk.matched expected.length := by
    rw [← hlen, ← Nat.zero_add e.stamps.length]
    exact walkStamps_matched expected hn e.stamps 0 hrepeats
  rw [align, hwalk]
  exact ⟨endFindings_ended expected _ e (Nat.lt_succ_self _), rfl, rfl⟩

end

section
/-! PROOF. The verdict of an aligned echo (06 R118): the first of five rows that applies to its full findings list and its flags. -/

namespace Sys2Proof.Machine

/-- Some finding of a list is of one of the kinds. -/
abbrev someOfKind (findings : List Finding) (kinds : List FindingKind) : Prop := ∃ f ∈ findings, f.kind ∈ kinds

theorem FindingKind.misroutes_iff (k : FindingKind) : k.misroutes = true ↔ k ∈ [.missing, .foreign, .port, .channel, .loop] := by
  cases k <;> decide

theorem FindingKind.degrades_iff (k : FindingKind) : k.degrades = true ↔ k ∈ [.lossHigh, .lossLow, .drift] := by
  cases k <;> decide

theorem someOfKind.mono {l m : List Finding} {kinds : List FindingKind} (h : someOfKind l kinds) (hlm : ∀ f ∈ l, f ∈ m) :
    someOfKind m kinds :=
  h.imp fun f ⟨hf, hk⟩ => ⟨hlm f hf, hk⟩

/-- The rows of R118 in their order. -/
theorem verdictOf_eq (findings : List Finding) (truncated : Bool) : verdictOf findings truncated =
    if someOfKind findings [.missing, .foreign, .port, .channel, .loop] then .misrouted
    else if someOfKind findings [.brk] then .broken
    else if truncated = true then .incomplete
    else if someOfKind findings [.lossHigh, .lossLow, .drift] then .degraded
    else .continuous := by
  simp only [verdictOf, List.any_eq_true, FindingKind.misroutes_iff, FindingKind.degrades_iff, decide_eq_true_eq, someOfKind,
    List.mem_singleton]

/-- Each row decides where none before it applies. -/
theorem verdictOf_rows (findings : List Finding) (truncated : Bool) :
    let verdict := verdictOf findings truncated
    let misroute := someOfKind findings [.missing, .foreign, .port, .channel, .loop]
    let broken := someOfKind findings [.brk]
    let degraded := someOfKind findings [.lossHigh, .lossLow, .drift]
    (misroute → verdict = .misrouted) ∧ (¬ misroute → broken → verdict = .broken) ∧
    (¬ misroute → ¬ broken → truncated = true → verdict = .incomplete) ∧
    (¬ misroute → ¬ broken → ¬ truncated = true → degraded → verdict = .degraded) ∧
    (¬ misroute → ¬ broken → ¬ truncated = true → ¬ degraded → verdict = .continuous) := by
  intro verdict misroute broken degraded
  rw [show verdict = _ from verdictOf_eq findings truncated]
  exact ⟨fun hm => if_pos hm, fun hm hb => (if_neg hm).trans (if_pos hb),
    fun hm hb ht => (if_neg hm).trans ((if_neg hb).trans (if_pos ht)),
    fun hm hb ht hd => (if_neg hm).trans ((if_neg hb).trans ((if_neg ht).trans (if_pos hd))),
    fun hm hb ht hd => (if_neg hm).trans ((if_neg hb).trans ((if_neg ht).trans (if_neg hd)))⟩

section Compare

variable (p : Params) (r : Route) (e : Echo) (before : Option Int)

/-- The verdict of a comparison rests on its full findings list, the DRIFT finding among them (06 R118). -/
theorem compareEcho_verdict : (compareEcho p r e before).verdict =
    verdictOf (compareEcho p r e before).findings (e.overflow && decide ((align r.expected e).i ≤ r.expected.length)) := rfl

/-- The findings of the walk are findings of the comparison. -/
theorem mem_compareEcho_findings (f : Finding) (h : f ∈ (align r.expected e).findings) : f ∈ (compareEcho p r e before).findings :=
  List.mem_append_left _ (List.mem_append_left _ h)

end Compare

/-- A walk that ends before e_n leaves a BREAK finding, or OVERFLOW cut the echo, or the hops it did not reach are MISSING (06 R115). -/
theorem align_unfinished (exp : List Hop) (e : Echo) (h : (align exp e).i ≤ exp.length) :
    someOfKind (align exp e).findings [.brk] ∨ e.overflow = true ∨
      someOfKind (align exp e).findings [.missing, .foreign, .port, .channel, .loop] := by
  have hend : ∀ f, f ∈ endFindings exp (align exp e).i e → f ∈ (align exp e).findings := fun f hf => List.mem_append_right _ hf
  rw [endFindings, if_neg (Nat.not_lt.2 h)] at hend
  by_cases hbrk : e.brk = true
  · rw [if_pos hbrk] at hend
    exact .inl ⟨_, hend _ (List.mem_singleton_self _), by simp⟩
  · by_cases hcut : e.overflow = true
    · exact .inr (.inl hcut)
    · rw [if_neg hbrk, if_neg hcut] at hend
      have hfirst : missingFinding exp ((align exp e).i + 0) ∈ missingFindings exp (align exp e).i exp.length :=
        List.mem_map_of_mem (List.mem_range.2 (Nat.sub_pos_of_lt (Nat.lt_succ_of_le h)))
      exact .inr (.inr ⟨_, hend _ hfirst, by simp [missingFinding]⟩)

end Sys2Proof.Machine

open Sys2Proof Sys2Proof.Machine

/-- Settles O44: each row is a branch of `verdictOf_eq`; a walk that ends before e_n meets one of the first three. -/
theorem verdictTakesTheFirstRowThatApplies : Obligations.VerdictTakesTheFirstRowThatApplies := by
  intro p r e before c has misroute cut
  have hcut : (e.overflow && decide ((align r.expected e).i ≤ r.expected.length)) = true ↔ cut := by
    rw [Bool.and_eq_true, decide_eq_true_iff]
  obtain ⟨hmisrouted, hbroken, hincomplete, hdegraded, hcontinuous⟩ :=
    verdictOf_rows c.findings (e.overflow && decide ((align r.expected e).i ≤ r.expected.length))
  rw [hcut] at hincomplete hdegraded hcontinuous
  refine ⟨hmisrouted, hbroken, hincomplete, hdegraded, hcontinuous, fun hv => ?_⟩
  by_contra hno
  have hlast : (align r.expected e).i ≤ r.expected.length := Nat.not_lt.1 hno
  have hmem : ∀ f ∈ (align r.expected e).findings, f ∈ c.findings := mem_compareEcho_findings p r e before
  have hm : ¬ misroute := fun h => nomatch (hmisrouted h).symm.trans hv
  have hb : ¬ has [.brk] := fun h => nomatch (hbroken hm h).symm.trans hv
  have hc : ¬ cut := fun h => nomatch (hincomplete hm hb h).symm.trans hv
  obtain h | h | h := align_unfinished r.expected e hlast
  · exact hb (h.mono hmem)
  · exact hc ⟨h, hlast⟩
  · exact hm (h.mono hmem)

end

section
/-! PROOF. The writes of a comparison (06 R120 to R123): each response hands the next write, and the engine word's the VERDICT entry. -/

namespace Sys2Proof.Machine

/-! ### The engine word in memory (06 R120) -/

theorem engineWordWritten_eq (data : Word) (s : State) (r : Requester) (x : Access) (hp : s.master.port = some (r, x))
    (ht : x.tag = .cmpEngine) : exec (.engineWordWritten data) s = .next (settle (deliver x.tag data (endAccess x s))) := by
  have hends : decide (s.portTag = some .cmpEngine) = true := by simp [State.portTag, hp, ht]
  exact congrArg Host.Outcome.next (endOf_response _ data s r x hp hends)

theorem deliver_cmpEngine (data : Word) (s : State) {tag : Tag} (ht : tag = .cmpEngine) :
    deliver tag data s = engineWordDone s := by
  rw [ht]
  rfl

theorem engineWordDone_eq (s : State) (item : Item) (result : CmpResult) (hi : s.cmp.item = some item)
    (hr : s.cmp.result = some result) : engineWordDone s =
      modJournal (fun j => { j with cmpOffer := some (cmpVerdictEntry s item result) })
        (modCmp (fun c => { c with phase := .handed, writes := [] })
          (setMapEntry (s.entry item.entry).circuit { s.mapEntry (s.entry item.entry).circuit with
            lastVerdict := result.verdict.code, lastCampaign := s.ownerId item.entry } s)) := by
  simp only [engineWordDone, hi, hr]
  rfl

/-! ### The VERDICT entry (06 R121, 11 R184) -/

theorem flatMap_words_length (l : List Finding) : (l.flatMap Finding.words).length = 2 * l.length := by
  induction l with
  | nil => rfl
  | cons f l ih =>
    simp only [List.flatMap_cons, List.length_append, ih, List.length_cons, Finding.words, List.length_nil]
    omega

theorem verdictEntry_bytes (v : VerdictFields) : (verdictEntry v).bytes = 56 + 8 * min 16 v.findings.length := by
  have hbody : (verdictEntry v).body.length = 12 + 2 * (findingsKept v.findings).length := by
    rw [← flatMap_words_length]
    exact List.length_append
  rw [JournalEntry.bytes, hbody, findingsKept, List.length_take]
  omega

/-! ### The writes before it, one by one (06 R120) -/

/-- A write of a comparison, with its value formed at this event. -/
def cmpAccess (s : State) (item : Item) (result : CmpResult) (k : CmpWrite) : Access :=
  let write := fun (o : Nat) (w : Word) (tag : Tag) => (⟨recordAddr s (s.entry item.entry).circuit o, some w, tag⟩ : Access)
  match k with
  | .baseline => write 0x14 (baselineWord result.baselineAfter) .cmpWrite
  | .captured => write 0x10 (field s.cmp.revision 16 0) .cmpWrite
  | .loss => write 0x18 (lossWord result.loss result.complete) .cmpWrite
  | .time => write 0x1C s.clock.netTime .cmpWrite
  | .engine => write 0x0C (engineWord result.engine result.verdict.code (s.ownerId item.entry)) .cmpEngine

theorem handCmpWrite_eq (s : State) (item : Item) (result : CmpResult) (k : CmpWrite) (rest : List CmpWrite)
    (hi : s.cmp.item = some item) (hr : s.cmp.result = some result) (hw : s.cmp.writes = k :: rest) :
    handCmpWrite s = hand .custody (cmpAccess s item result k) s := by
  simp only [handCmpWrite, hi, hr, hw]
  cases k <;> rfl

theorem deliver_cmpWrite (data : Word) (s : State) {tag : Tag} (ht : tag = .cmpWrite) :
    deliver tag data s = cmpWriteDone s := by
  rw [ht]
  rfl

theorem cmpWriteDone_eq (s : State) (item : Item) (result : CmpResult) (done next : CmpWrite) (rest : List CmpWrite)
    (hi : s.cmp.item = some item) (hr : s.cmp.result = some result) (hw : s.cmp.writes = done :: next :: rest) :
    cmpWriteDone s =
      hand .custody (cmpAccess s item result next) { s with cmp := { s.cmp with writes := next :: rest } } := by
  have htail : modCmp (fun c => { c with writes := c.writes.tail }) s = { s with cmp := { s.cmp with writes := next :: rest } } := by
    simp only [modCmp, hw, List.tail_cons]
  rw [cmpWriteDone, htail]
  exact handCmpWrite_eq _ item result next rest hi hr rfl

end Sys2Proof.Machine

open Sys2Proof Sys2Proof.Machine

/-- Settles O47: a write's response is `cmpWriteDone`, which hands `cmpAccess` of the next one; the engine word's is `engineWordDone`. -/
theorem engineWordWrittenHandsTheVerdict : Obligations.EngineWordWrittenHandsTheVerdict := by
  refine ⟨?_, ?_⟩
  · intro data s r x item result hp ht hi hr c owner
    have hu := (deliver_cmpEngine data (endAccess x s) ht).trans (engineWordDone_eq (endAccess x s) item result hi hr)
    have hmap := fun d => setMapEntry_mapEntry c d
      { s.mapEntry c with lastVerdict := result.verdict.code, lastCampaign := owner } (endAccess x s)
    have hmemory := response_outside data s r x hp
    refine ⟨_, engineWordWritten_eq data s r x hp ht, ?_⟩
    rw [hu] at hmemory ⊢
    refine ⟨rfl, (hmap c).trans (if_pos rfl), fun d hd => (hmap d).trans (if_neg hd), rfl, rfl, ⟨?_, ?_⟩, rfl,
      verdictEntry_bytes _, hmemory⟩
    · intro e he
      simp only [cmpVerdictEntry, he]
      rfl
    · intro o ho
      simp only [cmpVerdictEntry, ho]
      rfl
  · intro data s r x item result done next rest hp ht hi hr hw owner write
    have hu := (deliver_cmpWrite data (endAccess x s) ht).trans
      (cmpWriteDone_eq (endAccess x s) item result done next rest hi hr hw)
    have hmemory := response_outside data s r x hp
    have hexec : exec (.memoryAccessDone data) s = .next (settle (deliver x.tag data (endAccess x s))) :=
      congrArg Host.Outcome.next (by simp only [busResponse, hp])
    refine ⟨_, hexec, ?_⟩
    rw [hu] at hmemory ⊢
    refine ⟨rfl, rfl, fun q hq => (hand_queue_of _ q _ _).trans (if_neg hq), ?_, hmemory⟩
    rw [hand_queue]
    cases next <;> rfl

end

section
/-! PROOF. Segment losses (07 R131 to R138): the three tests of a segment, its judgement against a tolerance class, and the pairs a
comparison goes through. -/

namespace Sys2Proof.Machine

/-! ### Saturation (07 R138) -/

theorem saturate_bounds (i : Int) : -32767 ≤ saturate i ∧ saturate i ≤ 32767 := by
  simp only [saturate, clampInt]
  omega

theorem saturate_of_bounds {i : Int} (low : -32767 ≤ i) (high : i ≤ 32767) : saturate i = i := by
  simp only [saturate, clampInt]
  omega

/-! ### The judgement of a deviation (07 R135 R136) -/

section Deviation

variable (tol : Tolerance) (h : Hop) (a x : Nat) (d : Int)

theorem deviationFindings_high (hd : (tol.upper : Int) < d) :
    deviationFindings tol h a x d = [⟨.lossHigh, a + 1, x + 1, h.node, saturate d⟩] := if_pos hd

theorem deviationFindings_low (hd : d < -(tol.lower : Int)) (hu : d ≤ (tol.upper : Int)) :
    deviationFindings tol h a x d = [⟨.lossLow, a + 1, x + 1, h.node, saturate d⟩] :=
  (if_neg (Int.not_lt.2 hu)).trans (if_pos hd)

theorem deviationFindings_none (hl : -(tol.lower : Int) ≤ d) (hu : d ≤ (tol.upper : Int)) : deviationFindings tol h a x d = [] :=
  (if_neg (Int.not_lt.2 hu)).trans (if_neg (Int.not_lt.2 hl))

end Deviation

/-! ### The three tests of a segment (07 R132 R133) -/

/-- The detail of an UNMEASURED finding: 1 for an unknown transmit power, 2 for an unknown receive power, 3 for both. -/
def unknownCode (tx rx : Int) : Int := (if tx = unknownPower then 1 else 0) + (if rx = unknownPower then 2 else 0)

theorem unknownCode_cases {tx rx : Int} (hu : tx = unknownPower ∨ rx = unknownPower) :
    (rx ≠ unknownPower → unknownCode tx rx = 1) ∧ (tx ≠ unknownPower → unknownCode tx rx = 2) ∧
    (tx = unknownPower → rx = unknownPower → unknownCode tx rx = 3) := by
  refine ⟨fun hrx => ?_, fun htx => ?_, fun htx hrx => ?_⟩
  · rw [unknownCode, if_pos (hu.resolve_right hrx), if_neg hrx]; rfl
  · rw [unknownCode, if_neg htx, if_pos (hu.resolve_left htx)]; rfl
  · rw [unknownCode, if_pos htx, if_pos hrx]; rfl

section Segments

variable (tols : Vector Tolerance 8) (h : Hop) (g : Segment) (near far : Stamp) (a x : Nat) (acc : LossAcc)

theorem lossSegment_unchecked (hc : h.attr.lossCheck = false) : lossSegment tols h g near far a x acc = acc := by
  simp only [lossSegment, hc, Bool.not_false, if_true]

theorem lossSegment_unknown (hc : h.attr.lossCheck = true) (hu : near.tx = unknownPower ∨ far.rx = unknownPower) :
    lossSegment tols h g near far a x acc =
      { acc with findings := acc.findings ++ [⟨.unmeasured, a + 1, x + 1, h.node, unknownCode near.tx far.rx⟩] } := by
  simp only [lossSegment, hc, Bool.not_true, Bool.false_eq_true, if_false, if_pos hu, unknownCode]

theorem lossSegment_measured (hc : h.attr.lossCheck = true) (hu : ¬ (near.tx = unknownPower ∨ far.rx = unknownPower)) :
    let d := near.tx - far.rx - g.expectedLoss
    lossSegment tols h g near far a x acc =
      { findings := acc.findings ++ deviationFindings (tols.get (Fin.ofNat 8 h.attr.tolClass)) h a x d
        worst := if acc.worst.natAbs < d.natAbs then d else acc.worst
        loss := saturate (acc.loss + (near.tx - far.rx))
        measured := acc.measured + 1 } := by
  simp only [lossSegment, hc, Bool.not_true, Bool.false_eq_true, if_false, if_neg hu]

/-- Known powers lie in −5000..2500, so a measured loss lies in −7500..7500 (07 R133); an expected loss is no less than 0 and, at most
215000, bounds the deviation (07 R135). -/
theorem loss_and_deviation_range (ht : -5000 ≤ near.tx) (ht' : near.tx ≤ 2500) (hr : -5000 ≤ far.rx) (hr' : far.rx ≤ 2500) :
    -7500 ≤ near.tx - far.rx ∧ near.tx - far.rx ≤ 7500 ∧
    (g.expectedLoss ≤ 215000 →
      -222500 ≤ near.tx - far.rx - g.expectedLoss ∧ near.tx - far.rx - g.expectedLoss ≤ 7500) := by
  have expected_nonneg : 0 ≤ g.expectedLoss := Int.natCast_nonneg _
  omega

theorem lossSegment_loss_bounds (hacc : -32767 ≤ acc.loss ∧ acc.loss ≤ 32767) :
    -32767 ≤ (lossSegment tols h g near far a x acc).loss ∧ (lossSegment tols h g near far a x acc).loss ≤ 32767 := by
  cases hc : h.attr.lossCheck with
  | false => rwa [lossSegment_unchecked tols h g near far a x acc hc]
  | true =>
    by_cases hu : near.tx = unknownPower ∨ far.rx = unknownPower
    · rwa [lossSegment_unknown tols h g near far a x acc hc hu]
    · rw [lossSegment_measured tols h g near far a x acc hc hu]
      exact saturate_bounds _

end Segments

/-! ### The pairs in order (07 R131) -/

section Pairs

variable (tols : Vector Tolerance 8) (exp : List Hop) (segs : List Segment) (stamps : List Stamp) (acc : LossAcc)

/-- Two pairs that are not at consecutive positions and stamps bound no segment. -/
theorem lossPairs_apart (a x b y : Nat) (rest : List (Nat × Nat)) (hno : ¬ (b = a + 1 ∧ y = x + 1)) :
    lossPairs tols exp segs stamps ((a, x) :: (b, y) :: rest) acc = lossPairs tols exp segs stamps ((b, y) :: rest) acc := by
  rw [lossPairs, if_neg hno]

/-- Two pairs at consecutive positions and stamps bound the segment between them. -/
theorem lossPairs_segment {h : Hop} {g : Segment} {near far : Stamp} (a x : Nat) (rest : List (Nat × Nat))
    (hh : exp[a]? = some h) (hg : segs[a - 1]? = some g) (hn : stamps[x - 1]? = some near) (hf : stamps[x]? = some far) :
    lossPairs tols exp segs stamps ((a, x) :: (a + 1, x + 1) :: rest) acc =
      lossPairs tols exp segs stamps ((a + 1, x + 1) :: rest) (lossSegment tols h g near far a x acc) := by
  rw [lossPairs, if_pos ⟨rfl, rfl⟩, hh, hg, hn, hf]

/-- Saturation at each segment keeps the path loss in −32767..32767 (07 R138). -/
theorem lossPairs_loss_bounds (pairs : List (Nat × Nat)) (hacc : -32767 ≤ acc.loss ∧ acc.loss ≤ 32767) :
    -32767 ≤ (lossPairs tols exp segs stamps pairs acc).loss ∧ (lossPairs tols exp segs stamps pairs acc).loss ≤ 32767 := by
  fun_induction lossPairs tols exp segs stamps pairs acc with
  | case1 acc => exact hacc
  | case2 pair acc => exact hacc
  | case3 a x b y rest acc acc' ih =>
    refine ih ?_
    unfold acc'
    split
    · split
      · exact lossSegment_loss_bounds tols _ _ _ _ a x acc hacc
      · exact hacc
    · exact hacc

end Pairs

/-! ### The comparison before and after its drift check (07 R138 to R142) -/

section Compare

variable (p : Params) (r : Route) (e : Echo) (before : Option Int)

/-- What the segments of a comparison give, from nothing and through the match list in order. -/
def segmentLosses : LossAcc := lossPairs p.tolerance r.expected r.segments e.stamps (align r.expected e).pairs {}

/-- The findings of the walk and of the segments, on which the verdict before the drift check rests. -/
def findingsBeforeDrift : List Finding := (align r.expected e).findings ++ (segmentLosses p r e).findings

/-- OVERFLOW with e_n unmatched (06 R118). -/
def echoCut : Bool := e.overflow && decide ((align r.expected e).i ≤ r.expected.length)

/-- The DRIFT finding of a drift, where one is made (07 R141). -/
def driftFindings : Option Int → List Finding
  | some d => [⟨.drift, r.expected.length, e.stamps.length, nodeAt r.expected r.expected.length, saturate d⟩]
  | none => []

theorem driftFindings_kind (d : Option Int) :
    (driftFindings r e d).length ≤ 1 ∧ ∀ f ∈ driftFindings r e d, f.kind = .drift := by
  cases d <;> simp [driftFindings]

theorem segmentLosses_loss_bounds : -32767 ≤ (segmentLosses p r e).loss ∧ (segmentLosses p r e).loss ≤ 32767 :=
  lossPairs_loss_bounds _ _ _ _ _ _ (by decide)

theorem compareEcho_loss : (compareEcho p r e before).loss = (segmentLosses p r e).loss := rfl

theorem compareEcho_worst : (compareEcho p r e before).worst = saturate (segmentLosses p r e).worst := rfl

theorem compareEcho_complete_iff : (compareEcho p r e before).complete = true ↔
    (segmentLosses p r e).measured = r.expected.length - 1 ∧
      verdictOf (findingsBeforeDrift p r e) (echoCut r e) = .continuous := by
  show (decide _ && decide _) = true ↔ _
  rw [Bool.and_eq_true, decide_eq_true_iff, decide_eq_true_iff]
  rfl

/-- The baseline after a comparison and its full findings list: the baseline rules decide at a complete path loss, else nothing moves. -/
theorem compareEcho_ruling :
    let c := compareEcho p r e before
    let ruling := if c.complete then baselineRule p.driftLimit before c.loss else (before, none)
    c.baselineAfter = ruling.1 ∧ c.findings = findingsBeforeDrift p r e ++ driftFindings r e ruling.2 ∧
    c.verdict = verdictOf (findingsBeforeDrift p r e ++ driftFindings r e ruling.2) (echoCut r e) :=
  ⟨rfl, rfl, rfl⟩

end Compare

end Sys2Proof.Machine

open Sys2Proof Sys2Proof.Machine

/-- Settles O45: a segment by the outcome of its tests, the match list by its first two pairs, a comparison by its ruling. -/
theorem segmentLossesGiveTheFindings : Obligations.SegmentLossesGiveTheFindings := by
  refine ⟨fun _ => rfl, ?_, ?_, ?_⟩
  · intro tols h g near far a x acc t tol l d unknown
    refine ⟨lossSegment_unchecked tols h g near far a x acc, fun hc hu => ?_, fun hc hu => ?_⟩
    · exact ⟨_, lossSegment_unknown tols h g near far a x acc hc hu, unknownCode_cases hu⟩
    · rw [show t = _ from lossSegment_measured tols h g near far a x acc hc hu]
      refine ⟨rfl, rfl, loss_and_deviation_range g near far, fun hd => if_pos hd, fun hd => if_neg (Nat.not_lt.2 hd), ?_, ?_, ?_⟩
      · exact fun hd => congrArg (acc.findings ++ ·) (deviationFindings_high tol h a x d hd)
      · exact fun hd hup => congrArg (acc.findings ++ ·) (deviationFindings_low tol h a x d hd hup)
      · exact fun hlow hup =>
          (congrArg (acc.findings ++ ·) (deviationFindings_none tol h a x d hlow hup)).trans (List.append_nil _)
  · intro tols exp segs stamps acc
    refine ⟨by rw [lossPairs], fun pair => by rw [lossPairs], fun a x b y rest => ⟨?_, ?_⟩⟩
    · exact lossPairs_apart tols exp segs stamps acc a x b y rest
    · rintro h g near far rfl rfl hh hg hn hf
      exact lossPairs_segment tols exp segs stamps acc a x rest hh hg hn hf
  · intro p r e before w acc c
    obtain ⟨-, hfindings, -⟩ := compareEcho_ruling p r e before
    exact ⟨compareEcho_loss p r e before, compareEcho_worst p r e before, _, hfindings, driftFindings_kind r e _⟩

end

section
/-! PROOF. The baseline rules (07 R139 to R142): what a comparison makes of the baseline, and the verdict of its drift check. -/

namespace Sys2Proof.Machine

/-! ### The smoothing step (07 R142) -/

/-- An eighth of a drift, truncated towards zero, lies between 0 and the drift. -/
theorem tdiv_eight_between (d : Int) : min 0 d ≤ d.tdiv 8 ∧ d.tdiv 8 ≤ max 0 d := by
  obtain hd | hd := Int.le_total 0 d
  · rw [Int.tdiv_eq_ediv_of_nonneg hd]
    omega
  · have toward_zero : d.tdiv 8 = -(-d / 8) := by
      rw [← Int.tdiv_eq_ediv_of_nonneg (Int.neg_nonneg.2 hd), Int.neg_tdiv, Int.neg_neg]
    omega

theorem smooth_between (b p : Int) : min b p ≤ b + (p - b).tdiv 8 ∧ b + (p - b).tdiv 8 ≤ max b p := by
  have step := tdiv_eight_between (p - b)
  omega

/-- Between two values of 16 bits a smoothing step never saturates. -/
theorem smooth_eq {b p : Int} (hb : -32767 ≤ b) (hb' : b ≤ 32767) (hp : -32767 ≤ p ∧ p ≤ 32767) :
    smooth b p = b + (p - b).tdiv 8 := by
  have between := smooth_between b p
  exact saturate_of_bounds (by omega) (by omega)

/-! ### The baseline rules on a baseline present (07 R141 R142) -/

theorem baselineRule_drifted {limit : Nat} {b p : Int} (h : (limit : Int) < ((p - b).natAbs : Int)) :
    baselineRule limit (some b) p = (some b, some (p - b)) := if_pos h

theorem baselineRule_smoothed {limit : Nat} {b p : Int} (h : ((p - b).natAbs : Int) ≤ limit) :
    baselineRule limit (some b) p = (some (smooth b p), none) := if_neg (Int.not_lt.2 h)

/-! ### The verdict of the drift check (06 R118, 07 R141) -/

theorem someOfKind_concat (findings : List Finding) (f : Finding) (kinds : List FindingKind) :
    someOfKind (findings ++ [f]) kinds ↔ someOfKind findings kinds ∨ f.kind ∈ kinds := by
  simp only [someOfKind, List.mem_append, List.mem_singleton, or_and_right, exists_or, exists_eq_left]

/-- A DRIFT finding is of neither a misroute nor a break, so it turns CONTINUOUS into DEGRADED. -/
theorem verdictOf_drift {findings : List Finding} {truncated : Bool} (h : verdictOf findings truncated = .continuous) (f : Finding)
    (hf : f.kind = .drift) : verdictOf (findings ++ [f]) truncated = .degraded := by
  rw [verdictOf_eq] at h ⊢
  simp only [someOfKind_concat, hf]
  split_ifs at h with hmisroute hbreak hcut hdegrade
  simp [hmisroute, hbreak, hcut]

/-! ### The cases of a comparison's ruling (07 R139 to R142) -/

section Compare

variable (p : Params) (r : Route) (e : Echo) (before : Option Int)

theorem compareEcho_incomplete (hno : (compareEcho p r e before).complete = false) :
    (compareEcho p r e before).baselineAfter = before := by
  obtain ⟨hafter, -⟩ := compareEcho_ruling p r e before
  rwa [hno] at hafter

/-- A complete path loss without a DRIFT finding: the verdict stays CONTINUOUS. -/
theorem compareEcho_unmoved {after : Option Int} (hyes : (compareEcho p r e before).complete = true)
    (hrule : baselineRule p.driftLimit before (compareEcho p r e before).loss = (after, none)) :
    (compareEcho p r e before).baselineAfter = after ∧ (compareEcho p r e before).verdict = .continuous := by
  obtain ⟨hafter, -, hverdict⟩ := compareEcho_ruling p r e before
  obtain ⟨-, hcontinuous⟩ := (compareEcho_complete_iff p r e before).1 hyes
  rw [hyes, if_pos rfl, hrule] at hafter hverdict
  exact ⟨hafter, (hverdict.trans (by rw [driftFindings, List.append_nil])).trans hcontinuous⟩

/-- A complete path loss with a DRIFT finding: the verdict becomes DEGRADED. -/
theorem compareEcho_drifted {after : Option Int} {d : Int} (hyes : (compareEcho p r e before).complete = true)
    (hrule : baselineRule p.driftLimit before (compareEcho p r e before).loss = (after, some d)) :
    (compareEcho p r e before).baselineAfter = after ∧ (compareEcho p r e before).verdict = .degraded := by
  obtain ⟨hafter, -, hverdict⟩ := compareEcho_ruling p r e before
  obtain ⟨-, hcontinuous⟩ := (compareEcho_complete_iff p r e before).1 hyes
  rw [hyes, if_pos rfl, hrule] at hafter hverdict
  exact ⟨hafter, hverdict.trans (verdictOf_drift hcontinuous _ rfl)⟩

end Compare

end Sys2Proof.Machine

open Sys2Proof Sys2Proof.Machine

/-- Settles O46: `compareEcho_ruling` reduces each case to the branch that `baselineRule` takes there. -/
theorem baselineMovesTowardsACompletePathLoss : Obligations.BaselineMovesTowardsACompletePathLoss := by
  intro p r e before c w acc verdict
  have hcomplete : c.complete = true ↔ acc.measured = r.expected.length - 1 ∧ verdict = .continuous :=
    compareEcho_complete_iff p r e before
  have hloss : -32767 ≤ c.loss ∧ c.loss ≤ 32767 := segmentLosses_loss_bounds p r e
  refine ⟨hcomplete, hloss, compareEcho_incomplete p r e before, ?_, ?_⟩
  · rintro hyes rfl
    exact compareEcho_unmoved p r e none hyes rfl
  · rintro b hyes rfl hb hb'
    refine ⟨fun hd => compareEcho_drifted p r e (some b) hyes (baselineRule_drifted hd), fun hd => ?_⟩
    obtain ⟨hafter, hcontinuous⟩ := compareEcho_unmoved p r e (some b) hyes (baselineRule_smoothed hd)
    rw [smooth_eq hb hb' hloss] at hafter
    exact ⟨hcontinuous, hafter, smooth_between b c.loss⟩

end

section
/-! PROOF. The end of the arithmetic (06 R119 R120, 07 R143): the Comparator enters WRITING with a comparison and hands its first write. -/

namespace Sys2Proof.Machine

/-! ### The engine state of a comparison (06 R118 R120) -/

/-- An aligned echo is neither an illegal edit nor an invalid route, so its engine state is not REJECTED. -/
theorem engineAfter_verdictOf (findings : List Finding) (truncated : Bool) (rel : Release) :
    engineAfter (verdictOf findings truncated) rel ≠ .rejected := by
  rw [engineAfter_eq, verdictOf_eq]
  split_ifs <;> simp_all

/-! ### The first write of a result (06 R120) -/

/-- The first write of a result that is not REJECTED: the baseline where it changed, else the path loss. -/
theorem resultWrites_first (before : Option Int) (r : CmpResult) (he : r.engine ≠ .rejected) :
    ∃ rest, resultWrites before r = (if r.baselineAfter ≠ before then .baseline else .loss) :: rest := by
  rw [resultWrites, if_neg he]
  split_ifs <;> exact ⟨_, rfl⟩

theorem setPhase_eq_setAction (p : ActionPhase) (s : State) :
    setPhase p s = setAction (s.custody.action.map (fun a => { a with phase := p })) s := by
  cases ha : s.custody.action with
  | some a => exact setPhase_eq p s a ha
  | none =>
    simp only [setPhase, ha]
    rw [Option.map_none, ← ha]
    rfl

/-- The Comparator in WRITING with a result. -/
def writingResult (x : Comparator) (r : CmpResult) : Comparator :=
  { x with phase := .writing, result := some r, writes := resultWrites x.baseline r }

/-- The Comparator enters WRITING with any result: it takes the engine state of the pending release in force, and its first write is
handed over. -/
theorem beginWriting_hand (r : CmpResult) (s : State) (item : Item) (k : CmpWrite) (rest : List CmpWrite)
    (hi : s.cmp.item = some item) :
    let result := { r with engine := engineAfter r.verdict (s.mapEntry (s.entry item.entry).circuit).release }
    resultWrites s.cmp.baseline result = k :: rest →
      beginWriting r s = hand .custody (cmpAccess s item result k)
        (setAction (s.custody.action.map (fun a => { a with phase := .comparing }))
          { s with cmp := writingResult s.cmp result }) := by
  intro result hw
  have hbegin : beginWriting r s = handCmpWrite (setPhase .comparing { s with cmp := writingResult s.cmp result }) := by
    simp only [beginWriting, hi, setPhase]
    cases s.custody.action <;> rfl
  rw [hbegin, setPhase_eq_setAction]
  exact handCmpWrite_eq _ item result k rest hi rfl hw

/-! ### The end of the arithmetic (07 R143) -/

theorem alignmentDone_eq (s : State) (i : Fin 64) (e : Echo) (r : Route) (hrun : s.run = .running ∨ s.run = .stopping)
    (hp : s.cmp.phase = .aligning) (hi : s.cmp.item = some ⟨i, .echo e⟩) (hr : s.cmp.route = some r) :
    exec .alignmentDone s = .next (settle (beginWriting (compareEcho s.params r e s.cmp.baseline) s)) := by
  have hadmitted : (decide (s.cmp.phase = .aligning) && (decide (s.run = .running) || decide (s.run = .stopping))) = true := by
    simp [hp, hrun]
  have hfinish : finishAlignment s = beginWriting (compareEcho s.params r e s.cmp.baseline) s := by
    simp only [finishAlignment, hp, hi, hr]
  rw [← hfinish]
  exact congrArg Host.Outcome.next (if_pos hadmitted)

end Sys2Proof.Machine

open Sys2Proof Sys2Proof.Machine

/-- Settles O42: `beginWriting_hand` at the comparison's result, whose engine state is never REJECTED. -/
theorem arithmeticEndsInWriting : Obligations.ArithmeticEndsInWriting := by
  intro s i e r hrun hp hi hr c raw result
  have hengine : result.engine ≠ .rejected := engineAfter_verdictOf _ _ _
  obtain ⟨rest, hfirst⟩ := resultWrites_first s.cmp.baseline result hengine
  have hbegin := beginWriting_hand raw s ⟨i, .echo e⟩ _ rest hi hfirst
  refine ⟨_, alignmentDone_eq s i e r hrun hp hi hr, ?_⟩
  rw [show beginWriting (compareEcho s.params r e s.cmp.baseline) s = _ from hbegin]
  refine ⟨rfl, rfl, hengine, fun hchanged => ?_, fun hsame => ?_, settle_keeps rfl⟩
  · rw [hand_queue, if_pos (show result.baselineAfter ≠ s.cmp.baseline from hchanged)]
    rfl
  · rw [hand_queue, if_neg (not_not.2 (show result.baselineAfter = s.cmp.baseline from hsame))]
    rfl

end

section
/-! PROOF. The journal's geometry and its entries (08 R145 R149 R154) under every command and every step. -/

namespace Sys2Proof.Machine

/-- An event whose work leaves the journal as it stands keeps it sound through its service. -/
theorem settle_sound_of_journal {s t : State} (h : t.journal = s.journal) (hs : s.journal.sound) : (settle t).journal.sound :=
  settle_sound t (h ▸ hs)

theorem sound_of_journal {s t : State} (h : t.journal = s.journal) (hs : s.journal.sound) : t.journal.sound := h ▸ hs

/-- Every action of the part keeps the journal sound: a mark write, a halt and a response move it, and every other action leaves it to
the service. -/
theorem acts_journalSound : Acts (fun s t => s.journal.sound → t.journal.sound) where
  stays _ := id
  release _ := id
  select _ _ := id
  events _ _ := id
  mask _ _ := id
  control s value := controlWrite_sound value s
  base s value := settle_sound_of_journal (baseWrite_journal value s)
  mark s value h := settle_sound _ (markWrite_sound value s h)
  time _ _ := settle_sound_of_journal (evalWindows_journal _)
  response s data := busResponse_sound data s
  fault s := sound_of_journal (faultAccess_journal s)
  second s := settle_sound_of_journal (secondTick_journal s)
  settled s w := settle_sound_of_journal (settleCheck_journal w s)
  lost s k := sound_of_journal (signalLost_journal k s)
  lostServed s k := settle_sound_of_journal (signalLost_journal k s)
  present s k := sound_of_journal (signalPresent_journal k s)
  presentServed s k := settle_sound_of_journal (signalPresent_journal k s)
  holdOff s k := settle_sound_of_journal (holdOffExpires_journal k s)
  sent _ _ := id
  frame s k bs := settle_sound_of_journal (receiveFrame_journal k bs s)
  gap s k := settle_sound_of_journal (modSched_journal k _ s)
  timeout s i := settle_sound_of_journal (timeoutEntry_journal i s)
  backoff s i := settle_sound_of_journal (backoffDone_journal i s)
  aligned s := settle_sound_of_journal (finishAlignment_journal s)
  polled s := settle_sound_of_journal (poll_journal s)

/-- The hold leaves a journal without an area, nothing offered and nothing in hand (10 R180). -/
theorem hold_sound (s : State) : (hold s).journal.sound := by
  refine ⟨.inl ⟨rfl, rfl, rfl, rfl⟩, fun x hx => ?_, fun src e he => ?_⟩
  · exact absurd hx (by simp [hold])
  · cases src <;> exact absurd he (by simp [hold, Journal.offer])

end Sys2Proof.Machine

open Sys2Proof Sys2Proof.Machine

/-- Settles O59: the hold leaves no area, and every action and every millisecond keeps the journal sound. -/
theorem everyStepKeepsTheJournalSound : Obligations.EveryStepKeepsTheJournalSound :=
  step_keeps (fun s => s.journal.sound) acts_journalSound (fun _ _ => id) (fun s _ => hold_sound s) tick_sound

end

section
/-! PROOF. The placement of a journal entry (08 R145 R149): the bytes that it takes among those that are not unread, the words handed over,
and what placing an entry changes. -/

namespace Sys2Proof.Machine

/-! ### Distances in the area (08 R145) -/

theorem ringDistance_cases {size a b : Nat} (ha : a < size) (hb : b ≤ size) :
    (b ≤ a ∧ ringDistance size a b = a - b) ∨ (a < b ∧ ringDistance size a b = a + size - b) := by
  unfold ringDistance
  rcases Nat.lt_or_ge a b with h | h
  · exact .inr ⟨h, Nat.mod_eq_of_lt (by omega)⟩
  · refine .inl ⟨h, ?_⟩
    rw [show a + size - b = (a - b) + size by omega, Nat.add_mod_right, Nat.mod_eq_of_lt (by omega)]

/-! ### The three cases of the placement test (08 R149) -/

section Placement

variable (j : Journal) (n : Nat)

theorem placement_straight_iff : placement j n = .straight ↔ j.w + n ≤ j.size ∧ n ≤ j.free := by
  unfold placement
  split
  · simp_all
  · split <;> simp_all

theorem placement_wrap_iff : placement j n = .wrap ↔ j.size < j.w + n ∧ (j.size - j.w) + n ≤ j.free := by
  unfold placement
  split
  · next h => simp [Nat.not_lt.2 h.1]
  · split <;> simp_all

theorem placement_stall_iff : placement j n = .stall ↔
    ¬ (j.w + n ≤ j.size ∧ n ≤ j.free) ∧ ¬ (j.size < j.w + n ∧ (j.size - j.w) + n ≤ j.free) := by
  rw [← placement_straight_iff, ← placement_wrap_iff]
  cases placement j n <;> simp

/-! ### The bytes that a placed entry takes (08 R145 R149) -/

/-- The journal with its write offset past an entry of `n` bytes. -/
def Journal.past (p : Placement) : Journal := { j with w := offsetAfter j n p }

variable {j n} (hg : j.geometry)

include hg

theorem unread_cases : (j.m ≤ j.w ∧ j.unread = j.w - j.m) ∨ (j.w < j.m ∧ j.unread = j.w + j.size - j.m) := by
  obtain ⟨-, -, hw, hm, -, -⟩ := hg
  exact ringDistance_cases hw hm.le

/-- Straight behind the write offset, inside the free bytes. -/
theorem straight_takes_free (h : j.w + n ≤ j.size ∧ n ≤ j.free) :
    (∀ o, j.w ≤ o → o < j.w + n → ¬ ringDistance j.size o j.m < j.unread) ∧ (j.past n .straight).unread = j.unread + n := by
  have hu := unread_cases hg
  obtain ⟨-, hsize, hw, hm, -, -⟩ := hg
  simp only [Journal.free] at h
  refine ⟨fun o hlow hhigh => ?_, ?_⟩
  · have := ringDistance_cases (size := j.size) (a := o) (by omega) hm.le
    omega
  · show ringDistance j.size ((j.w + n) % j.size) j.m = j.unread + n
    rcases Nat.lt_or_ge (j.w + n) j.size with hin | hend
    · have := ringDistance_cases hin hm.le
      rw [Nat.mod_eq_of_lt hin]
      omega
    · have := ringDistance_cases (size := j.size) (a := 0) (by omega) hm.le
      rw [show j.w + n = j.size by omega, Nat.mod_self]
      omega

/-- At the area's front, with the bytes up to its end taken by the WRAP. -/
theorem wrap_takes_free (hn : 8 ≤ n) (h : j.size < j.w + n ∧ (j.size - j.w) + n ≤ j.free) :
    j.w + 8 ≤ j.size ∧ n < j.w ∧ (∀ o, o < j.size → (o < n ∨ j.w ≤ o) → ¬ ringDistance j.size o j.m < j.unread) ∧
    (j.past n .wrap).unread = j.unread + (j.size - j.w) + n := by
  have hu := unread_cases hg
  obtain ⟨hsize8, hsize, hw, hm, hw8, -⟩ := hg
  simp only [Journal.free] at h
  refine ⟨by omega, by omega, fun o hlt ho => ?_, ?_⟩
  · have := ringDistance_cases hlt hm.le
    omega
  · show ringDistance j.size n j.m = j.unread + (j.size - j.w) + n
    have := ringDistance_cases (size := j.size) (a := n) (by omega) hm.le
    omega

/-- The area keeps its geometry past a placed entry, and 8 of its bytes stay out of the unread ones (08 R145). -/
theorem placed_geometry (hn8 : n % 8 = 0) (hn : 8 ≤ n) (hp : placement j n ≠ .stall) :
    (j.past n (placement j n)).geometry ∧ (j.past n (placement j n)).unread ≤ j.size - 8 := by
  obtain ⟨hw', hw8'⟩ := offsetAfter_sound j n hg hn8 hp
  have ⟨hsize8, hsize, _, hm, _, hm8⟩ := hg
  refine ⟨⟨hsize8, hsize, hw', hm, hw8', hm8⟩, ?_⟩
  cases hq : placement j n with
  | straight =>
    have hroom := (placement_straight_iff j n).1 hq
    obtain ⟨-, hunread⟩ := straight_takes_free hg hroom
    rw [hunread]
    simp only [Journal.free] at hroom
    omega
  | wrap =>
    have hroom := (placement_wrap_iff j n).1 hq
    obtain ⟨-, -, -, hunread⟩ := wrap_takes_free hg hn hroom
    rw [hunread]
    simp only [Journal.free] at hroom
    omega
  | stall => exact absurd hq hp

/-- An entry of at most 184 bytes has room in a journal with nothing unread (08 R145). -/
theorem short_entry_placed (hn : n ≤ 184) (hu : j.unread = 0) : placement j n ≠ .stall := by
  obtain ⟨-, hsize, hw, hm, -, -⟩ := hg
  rw [Ne, placement_stall_iff, Journal.free, hu]
  omega

end Placement

/-! ### The words handed over (08 R149) -/

/-- An access without its tag: where it goes and what it writes. -/
def Access.effect (a : Access) : Word × Option Word := (a.addr, a.write)

/-- The words of a list from an offset of the area on, in ascending offset. -/
def wordsAt (base : Word) (start : Nat) (ws : List Word) : List (Word × Option Word) :=
  ws.zipIdx.map (fun x => (addrOf base (start + 4 * x.2), some x.1))

theorem wordsAt_cons (base : Word) (start : Nat) (w : Word) (ws : List Word) :
    wordsAt base start (w :: ws) = (addrOf base start, some w) :: wordsAt base (start + 4) ws := by
  simp only [wordsAt, List.zipIdx_cons', List.map_cons, List.map_map, Nat.mul_zero, Nat.add_zero]
  congr 2
  funext x
  simp only [Function.comp, Prod.map, id]
  rw [show start + 4 * (x.2 + 1) = start + 4 + 4 * x.2 by omega]

theorem handWrite_effects (o : Nat) (w : Word) (tag : Tag) (s : State) :
    ((handWrite .journal (addrOf s.journal.base o) w tag s).queue .journal).map Access.effect =
      (s.queue .journal).map Access.effect ++ [(addrOf s.journal.base o, some w)] := by
  rw [handWrite_queue_of, if_pos rfl, List.map_append]
  rfl

theorem journalWrites_effects (g : Tag) (o : Nat) (ws : List Word) (s : State) :
    ((journalWrites g o ws s).queue .journal).map Access.effect =
      (s.queue .journal).map Access.effect ++ wordsAt s.journal.base o ws := by
  induction ws generalizing o s with
  | nil => simp [journalWrites, wordsAt]
  | cons w ws ih =>
    rw [wordsAt_cons]
    cases ws with
    | nil => exact handWrite_effects o w g s
    | cons v vs =>
      have hrest := ih (o + 4) (handWrite .journal (addrOf s.journal.base o) w .plain s)
      rw [handWrite_effects, handWrite_journal, List.append_assoc] at hrest
      exact hrest

/-- Words handed over join the queues of accesses, and nothing else changes. -/
theorem journalWrites_frame (g : Tag) (o : Nat) (ws : List Word) (s : State) :
    ∃ handed, journalWrites g o ws s = { s with master := handed } := by
  induction ws generalizing o s with
  | nil => exact ⟨s.master, rfl⟩
  | cons w ws ih =>
    cases ws with
    | nil => exact ⟨_, rfl⟩
    | cons v vs => exact ih (o + 4) (handWrite .journal (addrOf s.journal.base o) w .plain s)

/-! ### An entry placed (08 R149) -/

section Write

variable (e : JournalEntry) (s : State)

/-- An entry placed is WRITING with the offset that it will leave; all else that changes are the queues of accesses. -/
theorem writeEntry_eq (p : Placement) (hp : p ≠ .stall) : ∃ handed, writeEntry p e s = { s with
    journal := { s.journal with phase := .writing, nextW := offsetAfter s.journal e.bytes p }, master := handed } := by
  let t := modJournal (fun j => { j with phase := .writing, nextW := offsetAfter j e.bytes p }) s
  cases p with
  | straight => exact journalWrites_frame .journalEnd s.journal.w (e.words s.journal.seq) t
  | wrap =>
    obtain ⟨header, hheader⟩ := journalWrites_frame .plain s.journal.w wrapWords t
    obtain ⟨handed, hwords⟩ := journalWrites_frame .journalEnd 0 (e.words s.journal.seq) { t with master := header }
    exact ⟨handed, (congrArg (journalWrites .journalEnd 0 (e.words s.journal.seq)) hheader).trans hwords⟩
  | stall => exact absurd rfl hp

theorem writeEntry_journal (p : Placement) (hp : p ≠ .stall) : (writeEntry p e s).journal =
    { s.journal with phase := .writing, nextW := offsetAfter s.journal e.bytes p } := by
  obtain ⟨handed, h⟩ := writeEntry_eq e s p hp
  rw [h]

theorem writeEntry_straight_effects : ((writeEntry .straight e s).queue .journal).map Access.effect =
    (s.queue .journal).map Access.effect ++ wordsAt s.journal.base s.journal.w (e.words s.journal.seq) :=
  journalWrites_effects _ _ _ _

theorem writeEntry_wrap_effects : ((writeEntry .wrap e s).queue .journal).map Access.effect =
    (s.queue .journal).map Access.effect ++ wordsAt s.journal.base s.journal.w wrapWords ++
      wordsAt s.journal.base 0 (e.words s.journal.seq) := by
  simp only [writeEntry, journalWrites_effects, journalWrites_journal, modJournal_journal, modJournal_queue]

/-- The entry in hand finds room: it is written. -/
theorem placeHand_places (src : Source) (hh : s.journal.hand = some (src, e)) (hp : placement s.journal e.bytes ≠ .stall) :
    placeHand s = writeEntry (placement s.journal e.bytes) e s := by
  cases h : placement s.journal e.bytes with
  | straight => simp only [placeHand, hh, h]
  | wrap => simp only [placeHand, hh, h]
  | stall => exact absurd h hp

theorem placeHand_noRoom (src : Source) (hh : s.journal.hand = some (src, e)) (hp : placement s.journal e.bytes = .stall) :
    placeHand s = noRoom s := by
  simp only [placeHand, hh, hp]

end Write

end Sys2Proof.Machine
end

section
/-! PROOF. The end of the custody action that waits for its journal entry (01 R14 R16 R20 R22): what it can do, what of it STOPPING leaves,
and that it hands nothing over for the journal. -/

namespace Sys2Proof.Machine

/-! ### The end of the action (01 R14) -/

theorem custodyEntryDone_ends (s : State) (a : Action) (o : SelectOutcome) (ha : s.custody.action = some a) (hp : a.phase = .entry o) :
    custodyEntryDone s = endAction o s := by
  simp only [custodyEntryDone, ha, hp]

/-- The state stands, or the action ends: the sweep or the load goes on, a campaign acts on its outcome, or nobody is told. -/
theorem custodyEntryDone_cases (s : State) :
    custodyEntryDone s = s ∨ custodyEntryDone s = setAction none s ∨ custodyEntryDone s = sweepNext (setAction none s) ∨
    custodyEntryDone s = loadNext (setAction none s) ∨ ∃ i o, custodyEntryDone s = stepOutcome i o (setAction none s) := by
  cases ha : s.custody.action with
  | none => exact .inl (by simp only [custodyEntryDone, ha])
  | some a =>
    cases hp : a.phase with
    | entry o =>
      rw [custodyEntryDone_ends s a o ha hp]
      cases hr : a.req with
      | sweep c => exact .inr (.inr (.inl (endAction_sweep o s a c ha hr)))
      | load c => exact .inr (.inr (.inr (.inl (endAction_load o s a c ha hr))))
      | select i id c live =>
        cases live with
        | true => exact .inr (.inr (.inr (.inr ⟨i, o, endAction_select o s a i id c true ha hr⟩)))
        | false => exact .inr (.inl (endAction_select o s a i id c false ha hr))
      | compare i c => exact .inr (.inl (by simp only [endAction, ha, hr]))
    | _ => exact .inl (by simp only [custodyEntryDone, ha, hp])

/-! ### In STOPPING (03 R69) -/

/-- The outcome of a step in STOPPING ends the step at most: no span test is made, and no entry is joined. -/
theorem stepOutcome_stopping (i : Fin 8) (o : SelectOutcome) (s : State) (hr : s.run = .stopping) : stepOutcome i o s =
    { s with custody := (stepOutcome i o s).custody, ctrl := (stepOutcome i o s).ctrl, master := (stepOutcome i o s).master } := by
  have hnot : ¬ s.run = .running := by rw [hr]; decide
  by_cases h : (s.campaign i).state = .selecting ∧ (s.campaign i).step = .custody
  · rw [stepOutcome_waiting i s o (.inr hr) h.1 h.2]
    cases o with
    | notWatched => exact endStep_frame i s
    | unusable => exact endStep_frame i s
    | rejected =>
      simp only []
      rw [endStep_frame]
      rfl
    | watched sel => simp only [if_neg hnot]; rfl
    | claimed sel => simp only [if_neg hnot]; rfl
  · rw [stepOutcome_outside i s o (by tauto)]

/-- In STOPPING neither a sweep nor a load goes on, so that the end of the action reaches the campaigns, the Custody Unit and the queues of
accesses alone. -/
theorem custodyEntryDone_stopping (s : State) (hr : s.run = .stopping) : custodyEntryDone s =
    { s with custody := (custodyEntryDone s).custody, ctrl := (custodyEntryDone s).ctrl, master := (custodyEntryDone s).master } := by
  have hrun : (setAction none s).run = .stopping := hr
  rcases custodyEntryDone_cases s with h | h | h | h | ⟨i, o, h⟩ <;> rw [h]
  · rfl
  · rw [sweepNext_outside _ (.inl (by rw [hrun]; decide))]
    rfl
  · rw [loadNext_outside _ (.inl (by rw [hrun]; decide))]
    rfl
  · rw [stepOutcome_stopping i o _ hrun]
    rfl

end Sys2Proof.Machine
end

section
/-! PROOF. The takes of the Journal Writer (08 R148 R150 R155): the source in turn, and what becomes of its entry. -/

namespace Sys2Proof.Machine

/-! ### When an entry is taken, and whose (08 R148) -/

theorem journalTakes_iff (s : State) : journalTakes s = true ↔ s.run = .running ∨ s.run = .stopping ∨
    (s.run = .loading ∧ (s.loader.step = .windows ∨ s.loader.step = .custody)) := by
  simp [journalTakes, or_assoc]

theorem pick_first {α : Type} (p : α → Bool) (before after : List α) (a : α) (hb : ∀ x ∈ before, p x = false) (ha : p a = true) :
    pick p (before ++ a :: after) = some a := by
  induction before with
  | nil => exact if_pos ha
  | cons b before ih =>
    have hskip : ¬ p b = true := by simp [hb b List.mem_cons_self]
    exact (if_neg hskip).trans (ih fun x hx => hb x (List.mem_cons_of_mem b hx))

/-- With no offer nothing is taken. -/
theorem takeEntry_nothing (s : State) (h : ∀ src, s.journal.offer src = none) : takeEntry s = s := by
  cases hp : pick (fun x => (s.journal.offer x).isSome) (sourcesAfter s.journal.served) with
  | none => simp only [takeEntry, hp]
  | some src => simp only [takeEntry, hp, h src]

theorem serveJournalLoop_rests (n : Nat) (s : State) (h : s.journal.phase ≠ .idle) : serveJournalLoop n s = s := by
  cases n with
  | zero => rfl
  | succ n => exact if_neg fun hidle => h hidle.1

theorem serveJournalLoop_nothing (n : Nat) (s : State) (h : ∀ src, s.journal.offer src = none) : serveJournalLoop n s = s := by
  induction n with
  | zero => rfl
  | succ n ih =>
    unfold serveJournalLoop
    split
    · rw [takeEntry_nothing s h, ih]
    · rfl

theorem serveJournal_takes (s : State) (hp : s.journal.phase = .idle) (ht : journalTakes s = true) :
    serveJournal s = serveJournalLoop 2 (takeEntry s) := if_pos ⟨hp, ht⟩

/-! ### An entry without room (08 R150 R155) -/

/-- An entry given up in STOPPING: its source is told (01 R23, 03 R69, 06 R127). -/
theorem noRoom_stopping (s : State) (src : Source) (e : JournalEntry) (hr : s.run = .stopping) (hh : s.journal.hand = some (src, e)) :
    noRoom s = toldAbandoned src { s with journal := { s.journal with phase := .idle, hand := none } } := by
  simp only [noRoom, if_pos hr, abandonHand, hh]
  rfl

/-- In STOPPING a source told that its entry is given up acts on no window, no link and no register (03 R69, 06 R127). -/
theorem toldAbandoned_stopping (s : State) (src : Source) (hr : s.run = .stopping) :
    let t := toldAbandoned src s
    t = { s with custody := t.custody, ctrl := t.ctrl, cmp := t.cmp, master := t.master } := by
  intro t
  cases src with
  | comparator => rfl
  | campaign => rfl
  | custody =>
    have hframe : t = _ := custodyEntryDone_stopping s hr
    rw [hframe]

/-- An entry that finds no room in another run state stalls, and JOURNAL_STALL is set as it does (08 R150). -/
theorem noRoom_stalls (s : State) (hr : s.run ≠ .stopping) (hp : s.journal.phase ≠ .stalled) :
    noRoom s = setEvent .journalStall { s with journal := { s.journal with phase := .stalled } } := by
  simp only [noRoom, if_neg hr, if_neg hp]
  rfl

theorem noRoom_stays (s : State) (hr : s.run ≠ .stopping) (hp : s.journal.phase = .stalled) : noRoom s = s := by
  simp only [noRoom, if_neg hr, if_pos hp]

/-! ### The entry taken (08 R148) -/

/-- The journal as a source's entry is taken into hand. -/
def Journal.taking (j : Journal) (src : Source) (e : JournalEntry) : Journal :=
  { j.clearOffer src with hand := some (src, e), served := src }

section Taking

variable (s : State) (src : Source) (e : JournalEntry)

/-- The state with a source's entry taken into hand. -/
def State.taking : State := { s with journal := s.journal.taking src e }

theorem taking_phase : (s.taking src e).journal.phase = s.journal.phase := by cases src <;> rfl

/-- A take leaves the area and the offsets as they stand, and with them every placement. -/
theorem taking_placement (n : Nat) : placement (s.taking src e).journal n = placement s.journal n := by cases src <;> rfl

theorem taking_offsetAfter (n : Nat) (p : Placement) : offsetAfter (s.taking src e).journal n p = offsetAfter s.journal n p := by
  cases src <;> cases p <;> rfl

/-- The first source in turn with an offer is the one served, and its entry is tested. -/
theorem takeEntry_inTurn (before after : List Source) (hturn : sourcesAfter s.journal.served = before ++ src :: after)
    (hbefore : ∀ x ∈ before, s.journal.offer x = none) (he : s.journal.offer src = some e) :
    takeEntry s = placeHand (s.taking src e) := by
  refine takeEntry_first s src e ?_ he
  rw [hturn]
  exact pick_first _ before after src (fun x hx => by rw [hbefore x hx]; rfl) (by rw [he]; rfl)

/-- An entry taken that fits is written where its placement gives. -/
theorem taking_places (hp : placement s.journal e.bytes ≠ .stall) :
    placeHand (s.taking src e) = writeEntry (placement s.journal e.bytes) e (s.taking src e) ∧
    (placeHand (s.taking src e)).journal = { s.journal.taking src e with
      phase := .writing, nextW := offsetAfter s.journal e.bytes (placement s.journal e.bytes) } := by
  have hplaced := placeHand_places e (s.taking src e) src rfl (by rw [taking_placement]; exact hp)
  rw [taking_placement] at hplaced
  refine ⟨hplaced, ?_⟩
  rw [hplaced, writeEntry_journal e _ _ hp, taking_offsetAfter]
  rfl

theorem taking_noRoom (hp : placement s.journal e.bytes = .stall) : placeHand (s.taking src e) = noRoom (s.taking src e) :=
  placeHand_noRoom e (s.taking src e) src rfl ((taking_placement s src e e.bytes).trans hp)

theorem taking_stalls (hidle : s.journal.phase = .idle) (hr : s.run ≠ .stopping) (hp : placement s.journal e.bytes = .stall) :
    placeHand (s.taking src e) =
      setEvent .journalStall { s with journal := { s.journal.taking src e with phase := .stalled } } := by
  have hphase : (s.taking src e).journal.phase ≠ .stalled := by rw [taking_phase, hidle]; decide
  rw [taking_noRoom s src e hp, noRoom_stalls (s.taking src e) hr hphase]
  rfl

/-- The state with a source's entry taken and given up again. -/
def State.givenUp : State := { s with journal := { s.journal.taking src e with hand := none } }

theorem taking_givesUp (hidle : s.journal.phase = .idle) (hr : s.run = .stopping) (hp : placement s.journal e.bytes = .stall) :
    placeHand (s.taking src e) = toldAbandoned src (s.givenUp src e) := by
  have hphase : (s.journal.taking src e).phase = .idle := (taking_phase s src e).trans hidle
  rw [taking_noRoom s src e hp, noRoom_stopping (s.taking src e) src e hr rfl, State.givenUp, ← hphase]
  rfl

end Taking

end Sys2Proof.Machine

open Sys2Proof Sys2Proof.Machine

/-- Settles O48: the placement by the three cases of its test, and the take by what the test on the entry in hand does. -/
theorem placedEntryLiesInTheFreeBytes : Obligations.PlacedEntryLiesInTheFreeBytes := by
  refine ⟨fun s e hg heven => ?_, fun s => ⟨fun h => ?_, fun src e before after hidle htakes hturn hbefore he => ?_⟩, rfl, rfl, rfl⟩
  · intro j n p after unread words handed
    obtain ⟨hn8, hn⟩ := bytes_even e heven
    refine ⟨fun hp => ?_, fun hp => ?_, placed_geometry hg hn8 hn, placement_stall_iff j n, short_entry_placed hg⟩
    · have hroom := (placement_straight_iff j n).1 hp
      obtain ⟨hfree, hunread⟩ := straight_takes_free hg hroom
      simp only [after, handed, hp]
      exact ⟨hroom.1, hfree, hunread, writeEntry_straight_effects e s⟩
    · obtain ⟨hheader, hshort, hfree, hunread⟩ := wrap_takes_free hg hn ((placement_wrap_iff j n).1 hp)
      simp only [after, handed, hp]
      exact ⟨hheader, hshort, hfree, hunread, writeEntry_wrap_effects e s⟩
  · rcases h with hphase | hno | hnone
    · exact serveJournal_rests s (.inl hphase)
    · exact serveJournal_rests s (.inr (Bool.eq_false_iff.2 (mt (journalTakes_iff s).1 hno)))
    · exact serveJournalLoop_nothing 3 s hnone
  · intro t taken p
    have ht : t = placeHand (s.taking src e) := takeEntry_inTurn s src e before after hturn hbefore he
    have hserve : serveJournal s = serveJournalLoop 2 t := serveJournal_takes s hidle ((journalTakes_iff s).2 htakes)
    have hends : t.journal.phase ≠ .idle → serveJournal s = t := fun h => hserve.trans (serveJournalLoop_rests 2 t h)
    refine ⟨hserve, fun hp => ?_, fun hp hr => ?_, fun hp hr => ?_⟩
    · obtain ⟨hwrite, hjournal⟩ := taking_places s src e hp
      rw [← ht] at hwrite hjournal
      exact ⟨hwrite, hends (by rw [hjournal]; simp), hjournal⟩
    · have hstall : t = _ := ht.trans (taking_stalls s src e hidle hr hp)
      have hevent : ∀ x, t.hasEvent x = (decide (.journalStall = x) || s.hasEvent x) := fun x =>
        (congrArg (·.hasEvent x) hstall).trans (setEvent_hasEvent .journalStall x _)
      refine ⟨hends (by rw [hstall]; simp), by rw [hevent]; simp, ?_, fun x hx => ?_⟩
      · rw [hstall]
        rfl
      · rw [hevent, decide_eq_false (Ne.symm hx), Bool.false_or]
    · have hgiven : t = toldAbandoned src (s.givenUp src e) := ht.trans (taking_givesUp s src e hidle hr hp)
      have hframe := toldAbandoned_stopping (s.givenUp src e) src hr
      rw [hgiven]
      refine ⟨hframe, ?_, ?_, ?_⟩
      · rintro rfl
        exact ⟨rfl, rfl, rfl⟩
      · rintro rfl
        exact ⟨rfl, rfl, rfl⟩
      · rintro rfl
        exact ⟨rfl, congrArg (·.cmp) (custodyEntryDone_stopping (s.givenUp .custody e) hr)⟩

end

section
/-! PROOF. The read mark (08 R151 R152): a mark write moves it, and a stall that is retried makes its placement again. -/

namespace Sys2Proof.Machine

section Mark

variable (value : Word) (s : State)

/-- The state with the read mark that a write leaves. -/
def State.marked : State := { s with journal := { s.journal with m := markAfter s.journal value } }

theorem journalMarkWrite_eq (hheld : s.held = false) (hselect : s.regs.select = 6) :
    exec (.journalMarkWrite value) s = .next (settle (markWrite value s)) := by
  have hindex : (!s.held && decide (s.regs.select.toNat = 6)) = true := by
    rw [hheld, hselect]
    rfl
  exact congrArg Host.Outcome.next (if_pos hindex)

/-- A stall is retried where entries are taken, but for STOPPING (08 R151). -/
theorem stallRetries_iff : stallRetries s = true ↔ s.journal.phase = .stalled ∧
    (s.run = .running ∨ (s.run = .loading ∧ (s.loader.step = .windows ∨ s.loader.step = .custody))) := by
  simp only [stallRetries, Bool.and_eq_true, decide_eq_true_iff, journalTakes_iff]
  constructor
  · rintro ⟨⟨hphase, hnot⟩, hrun | hstop | hload⟩
    · exact ⟨hphase, .inl hrun⟩
    · exact absurd hstop hnot
    · exact ⟨hphase, .inr hload⟩
  · rintro ⟨hphase, hrun | hload⟩
    · exact ⟨⟨hphase, by rw [hrun]; decide⟩, .inl hrun⟩
    · exact ⟨⟨hphase, by rw [hload.1]; decide⟩, .inr (.inr hload)⟩

theorem markWrite_rests (h : ¬ stallRetries s = true) : markWrite value s = s.marked value := if_neg h

theorem markWrite_retries (h : stallRetries s = true) : markWrite value s = placeHand (s.marked value) := if_pos h

/-- A retry without room: the stall stands, and JOURNAL_STALL is not set again (08 R150). -/
theorem markWrite_stays (src : Source) (e : JournalEntry) (h : stallRetries s = true) (hh : s.journal.hand = some (src, e))
    (hp : placement (s.marked value).journal e.bytes = .stall) : markWrite value s = s.marked value := by
  obtain ⟨hphase, hrun⟩ := (stallRetries_iff s).1 h
  have hnot : s.run ≠ .stopping := by rcases hrun with hrun | ⟨hrun, -⟩ <;> rw [hrun] <;> decide
  rw [markWrite_retries value s h, placeHand_noRoom e (s.marked value) src hh hp]
  exact noRoom_stays (s.marked value) hnot hphase

theorem markWrite_places (src : Source) (e : JournalEntry) (h : stallRetries s = true) (hh : s.journal.hand = some (src, e))
    (hp : placement (s.marked value).journal e.bytes ≠ .stall) :
    markWrite value s = writeEntry (placement (s.marked value).journal e.bytes) e (s.marked value) := by
  rw [markWrite_retries value s h]
  exact placeHand_places e (s.marked value) src hh hp

/-- A mark write moves the mark, and places the entry in hand at most. -/
theorem markWrite_cases : markWrite value s = s.marked value ∨
    ∃ p e, p ≠ .stall ∧ markWrite value s = writeEntry p e (s.marked value) := by
  by_cases h : stallRetries s = true
  · cases hh : s.journal.hand with
    | none =>
      rw [markWrite_retries value s h]
      exact .inl (by simp only [placeHand, show (s.marked value).journal.hand = none from hh])
    | some x =>
      by_cases hp : placement (s.marked value).journal x.2.bytes = .stall
      · exact .inl (markWrite_stays value s x.1 x.2 h hh hp)
      · exact .inr ⟨_, x.2, hp, markWrite_places value s x.1 x.2 h hh hp⟩
  · exact .inl (markWrite_rests value s h)

/-- A mark write reaches the Journal Writer and the queues of accesses alone, and of the area's offsets the mark. -/
theorem markWrite_frame :
    markWrite value s = { s with journal := (markWrite value s).journal, master := (markWrite value s).master } ∧
    (markWrite value s).journal.ring = { s.journal.ring with m := markAfter s.journal value } := by
  rcases markWrite_cases value s with h | ⟨p, e, hp, h⟩
  · rw [h]
    exact ⟨rfl, rfl⟩
  · obtain ⟨handed, hwrite⟩ := writeEntry_eq e (s.marked value) p hp
    rw [h, hwrite]
    exact ⟨rfl, rfl⟩

end Mark

end Sys2Proof.Machine

open Sys2Proof Sys2Proof.Machine

/-- Settles O50: a mark write by whether a stall is retried and whether its entry finds room with the new mark. -/
theorem markWriteMovesTheReadMark : Obligations.MarkWriteMovesTheReadMark := by
  intro value s hheld hselect j v mark moved
  obtain ⟨hframe, hring⟩ := markWrite_frame value s
  obtain ⟨hhost, hbytes⟩ := settle_keeps (markWrite_host value s)
  refine ⟨markWrite value s, journalMarkWrite_eq value s hheld hselect, (settle_ring _).trans hring, hframe, hhost, hbytes,
    fun hphase => ?_, fun hrun hload => ?_, fun src e hrun hphase hh => ⟨fun hp => ?_, fun hp => ?_⟩⟩
  · exact markWrite_rests value s fun h => hphase ((stallRetries_iff s).1 h).1
  · exact markWrite_rests value s fun h => ((stallRetries_iff s).1 h).2.elim hrun hload
  · exact markWrite_stays value s src e ((stallRetries_iff s).2 ⟨hphase, hrun⟩) hh hp
  · have hplaced := markWrite_places value s src e ((stallRetries_iff s).2 ⟨hphase, hrun⟩) hh hp
    exact ⟨hplaced, (congrArg (·.journal) hplaced).trans (writeEntry_journal e _ _ hp)⟩

end

section
/-! PROOF. An entry written (08 R147 R149): the journal advances, and its source is told; what telling it leaves to the Journal Writer. -/

namespace Sys2Proof.Machine

/-! ### What the sources do when told (06 R123, 03 R67) -/

/-- The end of a comparison, out of `entriesLeaveAndAreCounted`. -/
theorem verdictWritten_effect (s : State) (item : Item) (result : CmpResult) (hi : s.cmp.item = some item)
    (hr : s.cmp.result = some result) :
    let t := verdictWritten s
    t = { s with ctrl := t.ctrl, probes := t.probes, custody := t.custody, cmp := t.cmp } ∧
    t.entry item.entry = { generation := (s.entry item.entry).generation } ∧ (∀ j, j ≠ item.entry → t.entry j = s.entry j) ∧
    t.custody.action = none ∧ t.cmp = { lastOutcome := s.cmp.lastOutcome } := by
  obtain ⟨⟨-, -, -, hverdict⟩, -⟩ := entriesLeaveAndAreCounted
  obtain ⟨-, hframe, hfreed, hothers, -, -, -, haction, hcmp⟩ := hverdict s item result hi hr
  exact ⟨hframe, hfreed, hothers, haction, hcmp⟩

/-- The end of a campaign, out of `campaignsDrainSummariseAndAreGranted`. -/
theorem summaryWritten_effect (i : Fin 8) (s : State) :
    let t := summaryWritten i s
    t = { s with ctrl := t.ctrl, sched := t.sched, regs := { s.regs with events := t.regs.events }, master := t.master } ∧
    t.hasEvent .campaignDone = true ∧ t.campaign i = {} ∧ t.ctrl.offer = none ∧ (∀ j, j ≠ i → t.campaign j = s.campaign j) := by
  obtain ⟨-, -, hsummary, -⟩ := campaignsDrainSummariseAndAreGranted
  obtain ⟨hframe, hevent, hfree, hoffer, hothers, -⟩ := hsummary i s
  exact ⟨hframe, hevent, hfree, hoffer, hothers⟩

/-! ### A source told hands nothing over for the journal (10 R178) -/

theorem verdictWritten_queue (s : State) (q : Requester) : (verdictWritten s).queue q = s.queue q := by
  cases hi : s.cmp.item with
  | none => simp only [verdictWritten, hi]
  | some item =>
    cases hr : s.cmp.result with
    | none => simp only [verdictWritten, hi, hr]
    | some result =>
      obtain ⟨hframe, -⟩ := verdictWritten_effect s item result hi hr
      rw [hframe]
      rfl

theorem summaryWritten_queue_journal (i : Fin 8) (s : State) : (summaryWritten i s).queue .journal = s.queue .journal := by
  rw [summaryWritten_eq, finishWindow_frame]
  exact slotWordWrite_queue i _ .journal

theorem sweepNext_queue_journal (s : State) : (sweepNext s).queue .journal = s.queue .journal := by
  by_cases h : s.run = .running ∧ s.reader.sweep = .custody
  · by_cases hn : s.reader.circuit + 1 < s.params.circuitCount
    · rw [sweepNext_circuit s h.1 h.2 hn]
      rfl
    · cases hw : nextRefresh (windowsBegin s) with
      | none =>
        rw [sweepNext_scan s h.1 h.2 (by omega) hw]
        exact handRead_queue_of _ .journal _ _ _
      | some x =>
        rw [sweepNext_refresh s x.1 x.2 h.1 h.2 (by omega) hw]
        exact handRead_queue_of _ .journal _ _ _
  · rw [sweepNext_outside s (by tauto)]

theorem enterRunning_queue_journal (s : State) : (enterRunning s).queue .journal = s.queue .journal := by
  rw [enterRunning_eq]
  split <;> exact runningBegins_queue s .journal

theorem loadNext_queue_journal (s : State) : (loadNext s).queue .journal = s.queue .journal := by
  rcases loadNext_cases s with h | h | h <;> rw [h]
  · exact handRead_queue_of .custody .journal _ _ _
  · rw [enterRunning_queue_journal]
    exact handWrite_queue_of .request .journal _ _ _ _

theorem endStep_queue_journal (i : Fin 8) (s : State) : (endStep i s).queue .journal = s.queue .journal :=
  endStep_queue i s .journal (by decide)

theorem joinEntry_queue_journal (i : Fin 8) (sel : Selected) (s : State) : (joinEntry i sel s).queue .journal = s.queue .journal := by
  cases h : holdingEntry s sel.circuit with
  | none =>
    rw [joinEntry_gone i sel s h]
    unfold restartStep
    split <;> rfl
  | some e =>
    rw [joinEntry_held i sel s e h, endStep_queue_journal]
    exact (joined_beforeStepEnd i s e).queue .journal

theorem spanTest_queue_journal (i : Fin 8) (claimed : Bool) (sel : Selected) (s : State) :
    (spanTest i claimed sel s).queue .journal = s.queue .journal := by
  by_cases hm : (s.campaign i).spanSet.meets sel.spans = true
  · by_cases hf : s.anyFenced sel.spans = true
    · rw [spanTest_fenced i sel claimed s hm hf, endStep_queue_journal]
      rfl
    · cases claimed with
      | true => rw [spanTest_claimed i sel s hm hf, joinEntry_queue_journal]
      | false =>
        obtain ⟨-, -, hqueue⟩ := reachClaim_effect i sel s
        rw [spanTest_watched i sel s hm hf, hqueue, if_neg (by decide)]
  · rw [spanTest_missed i sel claimed s hm, endStep_queue_journal]

theorem stepOutcome_queue_journal (i : Fin 8) (o : SelectOutcome) (s : State) :
    (stepOutcome i o s).queue .journal = s.queue .journal := by
  by_cases h : (s.run = .running ∨ s.run = .stopping) ∧ (s.campaign i).state = .selecting ∧ (s.campaign i).step = .custody
  · obtain ⟨hr, hs, hc⟩ := h
    rw [stepOutcome_waiting i s o hr hs hc]
    cases o with
    | notWatched => exact endStep_queue_journal i s
    | unusable => exact endStep_queue_journal i s
    | rejected => exact endStep_queue_journal i _
    | watched sel =>
      simp only []
      split
      · exact spanTest_queue_journal i false sel s
      · rfl
    | claimed sel =>
      simp only []
      split
      · exact spanTest_queue_journal i true sel s
      · rfl
  · rw [stepOutcome_outside i s o (by tauto)]

theorem custodyEntryDone_queue_journal (s : State) : (custodyEntryDone s).queue .journal = s.queue .journal := by
  rcases custodyEntryDone_cases s with h | h | h | h | ⟨i, o, h⟩ <;> rw [h]
  · rfl
  · exact sweepNext_queue_journal _
  · exact loadNext_queue_journal _
  · exact stepOutcome_queue_journal i o _

theorem toldWritten_queue_journal (src : Source) (s : State) : (toldWritten src s).queue .journal = s.queue .journal := by
  cases src with
  | comparator => exact verdictWritten_queue s .journal
  | custody => exact custodyEntryDone_queue_journal s
  | campaign =>
    simp only [toldWritten]
    split
    · exact summaryWritten_queue_journal _ s
    · rfl

/-! ### The journal advanced (08 R147 R149) -/

/-- The state as a source is told: w, the sequence counter and the Journal Writer advanced, and JOURNAL_NEW set. -/
def State.advanced (s : State) : State := setEvent .journalNew { s with
  journal := { s.journal with w := s.journal.nextW, seq := s.journal.seq + 1, phase := .idle, hand := none } }

theorem entryWritten_eq (s : State) (src : Source) (e : JournalEntry) (hh : s.journal.hand = some (src, e)) :
    entryWritten s = statusWrite .journal 0x104 (BitVec.ofNat 32 s.journal.nextW) (toldWritten src s.advanced) := by
  simp only [entryWritten, hh]
  rfl

theorem journalEntryWritten_eq (data : Word) (s : State) (r : Requester) (x : Access) (hp : s.master.port = some (r, x))
    (ht : x.tag = .journalEnd) : exec (.journalEntryWritten data) s = .next (settle (entryWritten (endAccess x s))) := by
  have hlast : decide (s.portTag = some .journalEnd) = true := by simp [State.portTag, hp, ht]
  show Host.Outcome.next (endOf (decide (s.portTag = some .journalEnd)) data s) = _
  rw [endOf_response _ data s r x hp hlast, ht]
  rfl

/-- No event bit is cleared (10 R171). -/
theorem Drift.hasEvent {s t : State} (h : Drift s.regs t.regs) (e : Event) (he : s.hasEvent e = true) : t.hasEvent e = true := by
  have hbit : (t.regs.events &&& s.regs.events).getLsbD e.index = true := by rw [h.events]; exact he
  rw [BitVec.getLsbD_and, Bool.and_eq_true] at hbit
  exact hbit.1

/-- Whatever its source does when told, the Journal Writer is IDLE with the journal advanced, JOURNAL_NEW is set, and the write of the new
w is the one access that joins the Journal Writer's queue. -/
theorem entryWritten_advances (s : State) (src : Source) (e : JournalEntry) (hh : s.journal.hand = some (src, e)) :
    (entryWritten s).journal = s.advanced.journal ∧ (entryWritten s).hasEvent .journalNew = true ∧
    (entryWritten s).queue .journal = s.queue .journal ++
      [⟨addrOf s.params.controlBlock 0x104, some (BitVec.ofNat 32 s.journal.nextW), .plain⟩] := by
  have hparams : (toldWritten src s.advanced).params = s.params :=
    congrArg (·.host.params) (toldWritten_surround src s.advanced)
  rw [entryWritten_eq s src e hh]
  refine ⟨?_, ?_, ?_⟩
  · rw [statusWrite_journal, toldWritten_journal]
  · exact (toldWritten_drift src s.advanced (Drift.refl _)).hasEvent .journalNew (by simp [State.advanced])
  · rw [statusWrite, handWrite_queue_of, if_pos rfl, toldWritten_queue_journal, hparams]
    rfl

end Sys2Proof.Machine

open Sys2Proof Sys2Proof.Machine

/-- Settles O49: the journal's advance, and for each source what it does when told, with the write of w handed over after it. -/
theorem journalEntryWrittenAdvancesTheJournal : Obligations.JournalEntryWrittenAdvancesTheJournal := by
  intro data s r x src e hport htag hhand told
  obtain ⟨hjournal, hnew, hqueue⟩ := entryWritten_advances (endAccess x s) src e hhand
  have hu : entryWritten (endAccess x s) =
      statusWrite .journal 0x104 (BitVec.ofNat 32 s.journal.nextW) (toldWritten src told) := entryWritten_eq _ src e hhand
  refine ⟨_, journalEntryWritten_eq data s r x hport htag, hjournal, ?_, hnew, hqueue, ?_, ?_, ?_, fun a ha => ?_⟩
  · rw [settle_ring, hjournal]
    rfl
  · rintro rfl item result hi hr
    obtain ⟨hframe, hfreed, hothers, haction, hcmp⟩ := verdictWritten_effect told item result hi hr
    rw [hu]
    refine ⟨?_, rfl, rfl, rfl, hcmp, haction, hfreed, hothers⟩
    rw [show toldWritten .comparator told = _ from hframe]
    rfl
  · rintro rfl i hi
    obtain ⟨hframe, hdone, hfree, hoffer, hothers⟩ := summaryWritten_effect i told
    have htold : toldWritten .campaign told = summaryWritten i told := by
      simp only [toldWritten, show told.ctrl.offer = some i from hi]
    rw [hu, htold]
    refine ⟨?_, hfree, hoffer, hdone, hothers⟩
    rw [hframe]
    rfl
  · rintro rfl a o c ha hp
    have htold : toldWritten .custody told = endAction o told := custodyEntryDone_ends told a o ha hp
    rw [hu, htold]
    refine ⟨fun hr hrun => ?_, fun hr => ?_, fun hr => ?_, fun i id live hr => ?_, fun hr hrun hsweep hcount => ?_⟩
    · rw [endAction_load o told a c ha hr, loadNext_outside (setAction none told) (.inl hrun)]
      rfl
    · rw [endAction_load o told a c ha hr]
      exact ⟨rfl, rfl, rfl, rfl⟩
    · rw [endAction_sweep o told a c ha hr]
      exact ⟨rfl, rfl, rfl⟩
    · rw [endAction_select o told a i id c live ha hr]
      cases live <;> exact ⟨rfl, rfl⟩
    · rw [endAction_sweep o told a c ha hr, sweepNext_circuit (setAction none told) hrun hsweep hcount]
      rfl
  · have h := response_outside data s r x hport a ha
    rwa [htag] at h

end

section
/-! PROOF. Triggers and the beginning of a sweep (09 R159 to R161), and the CONTROL write that is one. -/

namespace Sys2Proof.Machine

/-! ### Triggers (09 R160 R161) -/

/-- A sweep that begins changes POLL_NOW, the reader and the Custody Unit's queue alone. -/
theorem beginSweep_eq (s : State) : beginSweep s = { s with
    regs := { s.regs with pollNow := false }
    reader := { s.reader with sweep := .custody, sweepStart := s.clock.netTime, circuit := 0 }
    custody := { s.custody with queue := s.custody.queue ++ [(s.eventNo, .sweep 0)] } } := rfl

theorem trigger_idle (s : State) (h : s.reader.sweep = .idle) : trigger s = beginSweep s := if_pos h

theorem trigger_busy (s : State) (h : s.reader.sweep ≠ .idle) :
    trigger s = { s with reader := { s.reader with sweepPending := true } } := if_neg h

/-! ### A CONTROL write with POLL_NOW and without HALT (10 R169) -/

section PollNow

variable (value : Word) (s : State)

/-- The state with the fields of a CONTROL write that sets POLL_NOW. -/
def State.pollHeld : State := { s with regs := { s.regs with irqEn := value.getLsbD 10, pollNow := true } }

variable (hpoll : value.getLsbD 9 = true)

include hpoll

theorem controlFields_pollNow : controlFields value s = s.pollHeld value := if_pos hpoll

variable (hhalt : value.getLsbD 8 = false)

include hhalt

theorem controlWrite_holds (hrun : s.run ≠ .running) : controlWrite value s = s.pollHeld value := by
  simp only [controlWrite, controlFields_pollNow value s hpoll, hhalt, hpoll, Bool.false_eq_true, if_false, Bool.true_and,
    decide_eq_true_eq]
  exact if_neg hrun

theorem controlWrite_triggers (hrun : s.run = .running) : controlWrite value s = settle (trigger (s.pollHeld value)) := by
  simp only [controlWrite, controlFields_pollNow value s hpoll, hhalt, hpoll, Bool.false_eq_true, if_false, Bool.true_and,
    decide_eq_true_eq]
  exact if_pos hrun

end PollNow

theorem pollNow_eq (value : Word) (s : State) (hheld : s.held = false) (hselect : s.regs.select = 1) :
    exec (.pollNow value) s = .next (controlWrite value s) := by
  have hindex : (!s.held && decide (s.regs.select.toNat = 1)) = true := by
    rw [hheld, hselect]
    rfl
  exact congrArg Host.Outcome.next (if_pos hindex)

end Sys2Proof.Machine

open Sys2Proof Sys2Proof.Machine

/-- Settles O4: the write's fields alone outside RUNNING, and a trigger after them in RUNNING, by whether the reader is IDLE. -/
theorem pollNowIsHeldOrTriggersASweep : Obligations.PollNowIsHeldOrTriggersASweep := by
  intro value s hheld hselect hpoll hhalt
  rw [pollNow_eq value s hheld hselect]
  refine ⟨fun hrun => ?_, fun hrun => ?_⟩
  · rw [controlWrite_holds value s hpoll hhalt hrun]
    rfl
  · rw [controlWrite_triggers value s hpoll hhalt hrun]
    have hbytes : ∀ a, readByte (settle (trigger (s.pollHeld value))).memory a = readByte s.memory a := fun a => by
      rw [settle_memory, memory_eq, hostSide_eq, trigger_surround]
      rfl
    by_cases hidle : s.reader.sweep = .idle
    · rw [trigger_idle (s.pollHeld value) hidle] at hbytes ⊢
      exact ⟨_, rfl, rfl, rfl, fun _ => ⟨rfl, rfl, rfl⟩, fun hbusy => absurd hidle hbusy, hbytes⟩
    · rw [trigger_busy (s.pollHeld value) hidle] at hbytes ⊢
      exact ⟨_, rfl, rfl, rfl, fun h => absurd h hidle, fun _ => ⟨rfl, rfl, rfl⟩, hbytes⟩

end

section
/-! PROOF. Accesses handed over (10 R178), the end of a read on the bus, and the polls (09 R158). -/

namespace Sys2Proof.Machine

/-! ### Accesses handed over (10 R178) -/

/-- Accesses that join the queue of one requester. -/
def handedTo (r : Requester) (l : List Access) (q : Requester) : List Access := if q = r then l else []

/-- From `s` to `t` each requester's queue takes its `handed` accesses in their order, and nothing else but the Memory Master changes. -/
structure HandsOver (s t : State) (handed : Requester → List Access) : Prop where
  frame : t = { s with master := t.master }
  queue : ∀ q, t.queue q = s.queue q ++ handed q

theorem HandsOver.refl (s : State) : HandsOver s s (fun _ => []) := ⟨rfl, fun _ => (List.append_nil _).symm⟩

theorem HandsOver.trans {s t u : State} {handed more : Requester → List Access} (h : HandsOver s t handed) (k : HandsOver t u more) :
    HandsOver s u (fun q => handed q ++ more q) where
  frame := by rw [k.frame, h.frame]
  queue q := by rw [k.queue, h.queue, List.append_assoc]

theorem hand_handsOver (r : Requester) (a : Access) (s : State) : HandsOver s (hand r a s) (handedTo r [a]) where
  frame := rfl
  queue q := by
    rw [hand_queue_of, handedTo]
    by_cases hq : q = r
    · rw [if_pos hq, if_pos hq, hq]
    · rw [if_neg hq, if_neg hq, List.append_nil]

/-- One more access for the same requester. -/
theorem HandsOver.hand {s t : State} {r : Requester} {l : List Access} (h : HandsOver s t (handedTo r l)) (a : Access) :
    HandsOver s (hand r a t) (handedTo r (l ++ [a])) where
  frame := (h.trans (hand_handsOver r a t)).frame
  queue q := by
    rw [(h.trans (hand_handsOver r a t)).queue]
    simp only [handedTo]
    split <;> simp

/-- One access each to one requester. -/
theorem flatMap_handedTo {α : Type} (l : List α) (r q : Requester) (f : α → Access) :
    l.flatMap (fun a => handedTo r [f a] q) = handedTo r (l.map f) q := by
  by_cases hq : q = r <;> simp [handedTo, hq, List.map_eq_flatMap]

/-- Each link's own accesses. -/
theorem flatMap_handedTo_link (f : Fin 4 → List Access) (k : Fin 4) :
    (List.finRange 4).flatMap (fun j => handedTo (.link j) (f j) (.link k)) = f k := by
  fin_cases k <;> simp [handedTo, List.finRange]

theorem flatMap_handedTo_no_link (f : Fin 4 → List Access) (q : Requester) (hq : ∀ k, q ≠ .link k) :
    (List.finRange 4).flatMap (fun j => handedTo (.link j) (f j) q) = [] := by
  simp [handedTo, hq]

/-- A walk in which each step hands over what it would hand over at the start: whatever the Memory Master holds meanwhile. -/
theorem foldl_handsOver {α : Type} (f : State → α → State) (s : State) (handed : α → Requester → List Access)
    (h : ∀ t a, t = { s with master := t.master } → HandsOver t (f t a) (handed a)) (l : List α) :
    ∀ t, t = { s with master := t.master } → HandsOver t (l.foldl f t) (fun q => l.flatMap (fun a => handed a q)) := by
  induction l with
  | nil => exact fun t _ => .refl t
  | cons a l ih =>
    intro t ht
    have hstep := h t a ht
    have hnext : f t a = { s with master := (f t a).master } := by rw [hstep.frame, ht]
    exact hstep.trans (ih (f t a) hnext)

/-! ### The Status Area words of a poll (05 R105, 04 R70, 03 R48) -/

/-- The access that writes a word of the Status Area. -/
def statusAccess (s : State) (offset : Nat) (w : Word) : Access := ⟨addrOf s.params.controlBlock offset, some w, .plain⟩

/-- A write of the Status Area, in the Control Block of the state that the accesses before it were handed over from. -/
theorem statusWrite_handsOver {s t : State} (ht : t = { s with master := t.master }) (r : Requester) (offset : Nat) (w : Word) :
    HandsOver t (statusWrite r offset w t) (handedTo r [statusAccess s offset w]) := by
  have hparams : t.params = s.params := congrArg (·.params) ht
  rw [statusAccess, ← hparams]
  exact hand_handsOver r _ t

/-- A link's state and its five counters, as a poll writes them. -/
def linkAccesses (s : State) (k : Fin 4) : List Access :=
  let c := (s.link k).counters
  [statusAccess s (0x110 + 24 * k.val) (field (s.link k).state.code 2 0),
    statusAccess s (0x114 + 24 * k.val) (BitVec.ofNat 32 c.sent),
    statusAccess s (0x118 + 24 * k.val) (BitVec.ofNat 32 c.accepted),
    statusAccess s (0x11C + 24 * k.val) (BitVec.ofNat 32 c.rejected),
    statusAccess s (0x120 + 24 * k.val) (BitVec.ofNat 32 c.dropped),
    statusAccess s (0x124 + 24 * k.val) (BitVec.ofNat 32 c.stale)]

/-- The access that writes the word of a campaign slot. -/
def slotAccess (s : State) (i : Fin 8) : Access := statusAccess s (0x170 + 4 * i.val) (slotWord (s.campaign i))

theorem linkStatusWrite_handsOver {s t : State} (ht : t = { s with master := t.master }) (k : Fin 4) :
    HandsOver t (linkStatusWrite k t) (handedTo (.link k) (linkAccesses s k)) := by
  have hparams : t.params = s.params := congrArg (·.params) ht
  have hlink : t.link k = s.link k := congrArg (·.link k) ht
  have hoffset : ∀ d, 0x114 + 24 * k.val + d = 0x114 + d + 24 * k.val := fun d => Nat.add_right_comm ..
  simp only [linkStatusWrite, linkCountersWrite, linkAccesses, ← hlink, statusAccess, ← hparams, hoffset]
  exact (((((hand_handsOver (.link k) _ t).hand _).hand _).hand _).hand _).hand _

theorem linkStatusWrites_handsOver {s t : State} (ht : t = { s with master := t.master }) :
    HandsOver t ((List.finRange 4).foldl (fun u k => linkStatusWrite k u) t)
      (fun q => (List.finRange 4).flatMap (fun k => handedTo (.link k) (linkAccesses s k) q)) :=
  foldl_handsOver _ s _ (fun _ k hu => linkStatusWrite_handsOver hu k) _ t ht

theorem slotWordsWrite_handsOver {s t : State} (ht : t = { s with master := t.master }) : HandsOver t (slotWordsWrite t)
    (fun q => (List.finRange 8).flatMap (fun i => handedTo .campaign [slotAccess s i] q)) := by
  refine foldl_handsOver _ s _ (fun u i hu => ?_) _ t ht
  have hslot : u.campaign i = s.campaign i := congrArg (·.campaign i) hu
  rw [slotAccess, ← hslot]
  exact statusWrite_handsOver hu _ _ _

/-! ### A poll (09 R158) -/

/-- The state with the poll timer restarted. -/
def State.pollRestarted (s : State) : State :=
  { s with reader := { s.reader with pollTimer := some (s.params.pollPeriod * 10) } }

/-- What a poll hands over: the epoch word's read, and each owner's words of the Status Area. -/
def pollAccesses (s : State) : Requester → List Access
  | .request => [⟨addrOf s.params.controlBlock 0x084, none, .epoch⟩]
  | .probe => [statusAccess s 0x10C (BitVec.ofNat 32 s.occupancy)]
  | .campaign => (List.finRange 8).map (slotAccess s)
  | .link k => linkAccesses s k
  | _ => []

theorem poll_handsOver (s : State) : HandsOver s.pollRestarted (poll s) (pollAccesses s) := by
  have hepoch := hand_handsOver .request ⟨addrOf s.params.controlBlock 0x084, none, .epoch⟩ s.pollRestarted
  have hlinks := hepoch.trans (linkStatusWrites_handsOver hepoch.frame)
  have hprobe := hlinks.trans (statusWrite_handsOver hlinks.frame .probe 0x10C (BitVec.ofNat 32 s.occupancy))
  have hall := hprobe.trans (slotWordsWrite_handsOver hprobe.frame)
  refine ⟨hall.frame, fun q => (hall.queue q).trans (congrArg _ ?_)⟩
  rw [flatMap_handedTo]
  cases q with
  | link k =>
    rw [flatMap_handedTo_link]
    exact List.append_nil _
  | _ =>
    rw [flatMap_handedTo_no_link _ _ (fun _ => Requester.noConfusion)]
    rfl

theorem pollTimerExpiry_eq (s : State) (hrun : s.run = .running) (htimer : s.reader.pollTimer.isSome = true) :
    exec .pollTimerExpiry s = .next (settle (poll s)) := by
  have hruns : pollTimerRuns s = true := by simp [pollTimerRuns, hrun, htimer]
  exact congrArg Host.Outcome.next (if_pos hruns)

/-! ### The end of a read on the bus -/

theorem portTag_of_readsWith {s : State} {tag : Tag} (hs : s.readsWith tag) : s.portTag = some tag := by
  obtain ⟨r, addr, hport⟩ := hs
  simp [State.portTag, hport]

/-- A read that ends a command's operation: the port is freed, its requester is told, and the event is served. -/
theorem endOf_read {last : Bool} {tag : Tag} {s : State} (data : Word) (hs : s.readsWith tag) (hlast : last = true) :
    endOf last data s = settle (deliver tag data s.portFreed) := by
  obtain ⟨r, addr, hport⟩ := hs
  rw [endOf_response last data s r _ hport hlast, endAccess_read s _ rfl]

/-! ### The epoch word (09 R158) -/

theorem epochReadDone_eq (data : Word) (s : State) (hs : s.readsWith .epoch) :
    exec (.epochReadDone data) s = .next (settle (epochRead data s.portFreed)) := by
  show Host.Outcome.next (endOf (decide (s.portTag = some .epoch)) data s) = _
  rw [endOf_read data hs (decide_eq_true (portTag_of_readsWith hs))]
  rfl

theorem epochRead_rests (data : Word) (s : State) (h : s.run ≠ .running ∨ data = s.reader.lastEpoch) : epochRead data s = s :=
  if_neg fun hchanged => h.elim (· hchanged.1) hchanged.2

theorem epochRead_triggers (data : Word) (s : State) (hrun : s.run = .running) (hdata : data ≠ s.reader.lastEpoch) :
    epochRead data s = trigger { s with reader := { s.reader with lastEpoch := data } } := if_pos ⟨hrun, hdata⟩

end Sys2Proof.Machine

open Sys2Proof Sys2Proof.Machine

/-- Settles O51: what a poll hands over, queue by queue, and the end of its epoch read by whether the word changed. -/
theorem pollReadsTheEpochAndTriggersOnChange : Obligations.PollReadsTheEpochAndTriggersOnChange := by
  intro data s
  refine ⟨?_, fun hs => ?_⟩
  · intro hrun htimer at'
    have h := poll_handsOver s
    exact ⟨_, pollTimerExpiry_eq s hrun htimer, h.frame, h.queue .request, h.queue .probe, h.queue .campaign,
      fun k => h.queue (.link k), settle_keeps (congrArg Surround.host (poll_surround s))⟩
  · let p := s.portFreed
    obtain ⟨hhost, hbytes⟩ := settle_keeps (s := s) (congrArg Surround.host (epochRead_surround data p))
    refine ⟨_, epochReadDone_eq data s hs, hhost, hbytes, epochRead_rests data p,
      fun hrun hdata => ⟨fun hbusy => ?_, fun hidle => ?_⟩⟩
    · exact (epochRead_triggers data p hrun hdata).trans (trigger_busy _ hbusy)
    · exact (epochRead_triggers data p hrun hdata).trans (trigger_idle _ hidle)

end

section
/-! PROOF. The answer of a request (09 R164 R165, 03 R49 R51): its two writes, and the campaign it may start; the request scan's control
word and hand-back (09 R160 to R164). -/

namespace Sys2Proof.Machine

/-! ### The answer of a request (09 R164 R165) -/

/-- The writes of an answer, in their order: the result word, then the control word with owner HOST. -/
def answerAccesses (s : State) (control : Word) (a : Answer) : List Access :=
  [⟨slotAddr s s.reader.nextIndex 0x2C, some (resultWord a.code a.campaign), .plain⟩,
    ⟨slotAddr s s.reader.nextIndex 0x00, some (handbackWord control), .reqHandback⟩]

/-- The request in hand is answered. -/
def State.answered (s : State) : State := { s with reader := { s.reader with stage := .answered } }

/-- Whatever a request does, its answer is two accesses handed over after it. -/
theorem actOnRequest_handsOver {control : Word} {args : List Word} {s t : State} {a : Answer}
    (hanswer : answerRequest control args s = (t, a)) (hparams : t.params = s.params) :
    HandsOver t.answered (actOnRequest control args s) (handedTo .request (answerAccesses s control a)) := by
  simp only [actOnRequest, hanswer, answerAccesses, slotAddr, hparams]
  exact (hand_handsOver .request _ t.answered).hand _

/-! ### A campaign started by a request (03 R49 R51) -/

/-- The campaign that a request's creation fills a slot with. -/
def requestedCampaign (s : State) (control : Word) (set : SpanSet) : Campaign :=
  { id := chooseId s 8 s.ctrl.nextId, state := .selecting, origin := .request s.reader.nextIndex, cls := requestClass control
    spanSet := set, startTime := s.clock.netTime, step := .custody }

theorem createdCampaign_request (s : State) (control : Word) (set : SpanSet) (hset : set ≠ .list []) :
    createdCampaign s (chooseId s 8 s.ctrl.nextId) (.request s.reader.nextIndex) (requestClass control) set =
      requestedCampaign s control set := if_neg hset

theorem startCampaign_full (k : Nat) (cls : Class) (set : SpanSet) (s : State) (h : freeSlot s = none) :
    startCampaign k cls set s = (s, ⟨.noSlot, 0⟩) := by
  simp only [startCampaign, h]

theorem startCampaign_creates (k : Nat) (cls : Class) (set : SpanSet) (s : State) (i : Fin 8) (h : freeSlot s = some i) :
    startCampaign k cls set s =
      ((createCampaign i (.request k) cls set s).1, ⟨.started, chooseId s 8 s.ctrl.nextId⟩) := by
  simp only [startCampaign, h, ← createCampaign_id i (.request k) cls set s]

/-- What an answer STARTED leaves: the campaign in slot `i`, its slot word and the answer handed over, its first selection step asked
for. -/
structure StartAnswered (i : Fin 8) (control : Word) (set : SpanSet) (s u : State) : Prop where
  frame : u = { s with reader := u.reader, master := u.master, ctrl := u.ctrl, custody := u.custody }
  reader : u.reader = { s.reader with stage := .answered }
  campaign : u.campaign i = requestedCampaign s control set
  others : ∀ j, j ≠ i → u.campaign j = s.campaign j
  nextId : u.ctrl.nextId = idAfter (chooseId s 8 s.ctrl.nextId)
  custody : u.custody = { s.custody with queue := s.custody.queue ++
    [(s.eventNo, .select i (chooseId s 8 s.ctrl.nextId) (requestedCampaign s control set).stepCircuit true)] }
  slotWord : u.queue .campaign = s.queue .campaign ++
    [⟨addrOf s.params.controlBlock (0x170 + 4 * i.val), some (slotWord (u.campaign i)), .plain⟩]
  answer : u.queue .request = s.queue .request ++ answerAccesses s control ⟨.started, chooseId s 8 s.ctrl.nextId⟩
  queues : ∀ q, q ≠ .campaign → q ≠ .request → u.queue q = s.queue q

theorem actOnRequest_starts {control : Word} {args : List Word} {set : SpanSet} {s : State} {i : Fin 8}
    (hanswer : answerRequest control args s = startCampaign s.reader.nextIndex (requestClass control) set s)
    (hset : set ≠ .list []) (hi : freeSlot s = some i) : StartAnswered i control set s (actOnRequest control args s) := by
  have hcreation := createCampaign_creation i (.request s.reader.nextIndex) (requestClass control) set s
  rw [createdCampaign_request s control set hset] at hcreation
  rw [startCampaign_creates _ _ _ _ i hi] at hanswer
  generalize (createCampaign i (.request s.reader.nextIndex) (requestClass control) set s).1 = t at hanswer hcreation
  have hparams : t.params = s.params := congrArg (·.params) hcreation.frame
  have hreader : t.reader = s.reader := congrArg (·.reader) hcreation.frame
  have hanswered := actOnRequest_handsOver hanswer hparams
  generalize actOnRequest control args s = u at hanswered
  have hcampaign : ∀ j, u.campaign j = t.campaign j := fun j => congrArg (·.campaign j) hanswered.frame
  have hrequest : t.queue .request = s.queue .request := hcreation.queues .request Requester.noConfusion
  refine ⟨?_, ?_, (hcampaign i).trans hcreation.campaign, fun j hj => (hcampaign j).trans (hcreation.others j hj), ?_, ?_, ?_, ?_,
    fun q hq hq' => ?_⟩
  · rw [hanswered.frame, hcreation.frame]
    rfl
  · rw [← hreader]
    exact congrArg (·.reader) hanswered.frame
  · exact (congrArg (·.ctrl.nextId) hanswered.frame).trans hcreation.nextId
  · exact (congrArg (·.custody) hanswered.frame).trans hcreation.custody
  · rw [hcampaign, hcreation.campaign, ← hcreation.queue]
    exact (hanswered.queue .campaign).trans (List.append_nil _)
  · rw [← hrequest]
    exact hanswered.queue .request
  · rw [hanswered.queue, handedTo, if_neg hq', List.append_nil, ← hcreation.queues q hq]
    rfl

/-! ### The end of a scan (09 R160 R161) -/

/-- The scan has ended, and a sweep has begun for the pending trigger. -/
def State.sweptAnew (s : State) : State := { s with
  regs := { s.regs with pollNow := false }
  reader := { s.reader with
    stage := .none, sweepPending := false, sweep := .custody, sweepStart := s.clock.netTime, circuit := 0 }
  custody := { s.custody with queue := s.custody.queue ++ [(s.eventNo, .sweep 0)] } }

/-- The scan has ended, and the sweep with it. -/
def State.sweptOut (s : State) : State := { s with reader := { s.reader with stage := .none, sweep := .idle } }

theorem endSweep_stops (s : State) (h : s.reader.sweepPending = false) :
    HandsOver s.sweptOut (endSweep s) (handedTo .request [statusAccess s 0x108 s.reader.sweepStart]) := by
  have hend : endSweep s = statusWrite .request 0x108 s.reader.sweepStart s.sweptOut := by
    simp only [endSweep]
    exact if_neg (by rw [statusWrite]; simp [h])
  rw [hend]
  exact hand_handsOver _ _ s.sweptOut

theorem endSweep_restarts (s : State) (h : s.reader.sweepPending = true) :
    HandsOver s.sweptAnew (endSweep s) (handedTo .request [statusAccess s 0x108 s.reader.sweepStart]) := by
  have hend : endSweep s = statusWrite .request 0x108 s.reader.sweepStart s.sweptAnew := by
    simp only [endSweep]
    exact if_pos h
  rw [hend]
  exact hand_handsOver _ _ s.sweptAnew

/-! ### The control word of a slot (09 R163) -/

theorem requestControlReadDone_eq (data : Word) (s : State) (hs : s.readsWith .reqControl) :
    exec (.requestControlReadDone data) s = .next (settle (controlRead data s.portFreed)) := by
  show Host.Outcome.next (endOf (decide (s.portTag = some .reqControl)) data s) = _
  rw [endOf_read data hs (decide_eq_true (portTag_of_readsWith hs))]
  rfl

section Control

variable (data : Word) (s : State) (hstage : s.reader.stage = .control)

include hstage

theorem controlRead_host (h : ¬ ownerIsEngine data = true) : controlRead data s = endSweep s := by
  simp [controlRead, hstage, h]

theorem controlRead_full (h : ownerIsEngine data = true) (hfull : s.params.slotCount ≤ s.reader.processed) :
    controlRead data s = endSweep { s with reader := { s.reader with sweepPending := true } } := by
  simp [controlRead, hstage, h, hfull, modReader]

theorem controlRead_takes (h : ownerIsEngine data = true) (hfull : ¬ s.params.slotCount ≤ s.reader.processed) :
    controlRead data s = nextArg data [] s := by
  simp [controlRead, hstage, h, hfull]

/-- The scan ends with the sweep where the owner is HOST and no trigger is pending. -/
theorem controlRead_stops (h : ¬ ownerIsEngine data = true) (hpending : s.reader.sweepPending = false) :
    HandsOver s.sweptOut (controlRead data s) (handedTo .request [statusAccess s 0x108 s.reader.sweepStart]) := by
  rw [controlRead_host data s hstage h]
  exact endSweep_stops s hpending

/-- The scan ends and a sweep begins where a trigger is pending, or the scan's last slot is a trigger itself. -/
theorem controlRead_restarts (h : (¬ ownerIsEngine data = true ∧ s.reader.sweepPending = true) ∨
    (ownerIsEngine data = true ∧ s.params.slotCount ≤ s.reader.processed)) :
    HandsOver s.sweptAnew (controlRead data s) (handedTo .request [statusAccess s 0x108 s.reader.sweepStart]) := by
  rcases h with ⟨howner, hpending⟩ | ⟨howner, hfull⟩
  · rw [controlRead_host data s hstage howner]
    exact endSweep_restarts s hpending
  · rw [controlRead_full data s hstage howner hfull]
    exact endSweep_restarts { s with reader := { s.reader with sweepPending := true } } rfl

variable (howner : ownerIsEngine data = true) (hfull : ¬ s.params.slotCount ≤ s.reader.processed)

include howner hfull

/-- A kind with arguments: the first one is read. -/
theorem controlRead_asks (hkind : requestKind data = .verifyCircuit ∨ requestKind data = .verifySpans ∨ requestKind data = .abort) :
    HandsOver { s with reader := { s.reader with stage := .args data [] } } (controlRead data s)
      (handedTo .request [⟨slotAddr s s.reader.nextIndex 0x04, none, .reqArg⟩]) := by
  have hfirst : (argOffsets (requestKind data))[0]? = some 0x04 := by
    rcases hkind with h | h | h <;> rw [h] <;> rfl
  rw [controlRead_takes data s hstage howner hfull]
  simp only [nextArg, List.length_nil, hfirst]
  exact hand_handsOver _ _ _

/-- A kind without arguments is answered at once. -/
theorem controlRead_answers (hkind : requestKind data = .unknown ∨ requestKind data = .verifyAll) :
    controlRead data s = actOnRequest data [] s := by
  have hnone : (argOffsets (requestKind data))[0]? = none := by
    rcases hkind with h | h <;> rw [h] <;> rfl
  rw [controlRead_takes data s hstage howner hfull]
  simp only [nextArg, List.length_nil, hnone]

/-- A request that is no campaign's: its two writes are all it hands over. -/
theorem controlRead_declines (hkind : requestKind data = .unknown ∨ (requestKind data = .verifyAll ∧ freeSlot s = none)) :
    HandsOver s.answered (controlRead data s) (handedTo .request
      (answerAccesses s data ⟨if requestKind data = .unknown then .badArgs else .noSlot, 0⟩)) := by
  rw [controlRead_answers data s hstage howner hfull (hkind.imp_right And.left)]
  refine actOnRequest_handsOver ?_ rfl
  rcases hkind with h | ⟨h, hnone⟩
  · simp [answerRequest, h]
  · simp [answerRequest, h, startCampaign_full _ _ _ s hnone]

theorem controlRead_starts (hkind : requestKind data = .verifyAll) (i : Fin 8) (hi : freeSlot s = some i) :
    StartAnswered i data .all s (controlRead data s) := by
  rw [controlRead_answers data s hstage howner hfull (.inr hkind)]
  refine actOnRequest_starts ?_ SpanSet.noConfusion hi
  simp only [answerRequest, hkind]

end Control

/-- What every end of a control word's read keeps: it reaches the reader but for its next index, the accesses handed over, the custody
requests, the campaigns, and of the registers POLL_NOW. -/
structure ScanStep (s u : State) : Prop where
  frame : u = { s with reader := u.reader, master := u.master, custody := u.custody, ctrl := u.ctrl, regs := u.regs }
  regs : u.regs = { s.regs with pollNow := u.regs.pollNow }
  nextIndex : u.reader.nextIndex = s.reader.nextIndex

theorem HandsOver.scanStep {s t u : State} {handed : Requester → List Access} (h : HandsOver t u handed) (ht : ScanStep s t) :
    ScanStep s u where
  frame := by
    rw [h.frame, ht.frame]
  regs := by
    rw [h.frame]
    exact ht.regs
  nextIndex := (congrArg (·.reader.nextIndex) h.frame).trans ht.nextIndex

theorem StartAnswered.scanStep {i : Fin 8} {control : Word} {set : SpanSet} {s u : State} (h : StartAnswered i control set s u) :
    ScanStep s u where
  frame := by
    rw [h.frame]
  regs := by
    rw [h.frame]
  nextIndex := congrArg (·.nextIndex) h.reader

theorem controlRead_scanStep (data : Word) (s : State) (hstage : s.reader.stage = .control) : ScanStep s (controlRead data s) := by
  by_cases howner : ownerIsEngine data = true
  · by_cases hfull : s.params.slotCount ≤ s.reader.processed
    · exact (controlRead_restarts data s hstage (.inr ⟨howner, hfull⟩)).scanStep ⟨rfl, rfl, rfl⟩
    · have hasks := controlRead_asks data s hstage howner hfull
      have hdeclines := controlRead_declines data s hstage howner hfull
      cases hkind : requestKind data with
      | verifyAll =>
        cases hi : freeSlot s with
        | none => exact (hdeclines (.inr ⟨hkind, hi⟩)).scanStep ⟨rfl, rfl, rfl⟩
        | some i => exact (controlRead_starts data s hstage howner hfull hkind i hi).scanStep
      | unknown => exact (hdeclines (.inl hkind)).scanStep ⟨rfl, rfl, rfl⟩
      | verifyCircuit => exact (hasks (.inl hkind)).scanStep ⟨rfl, rfl, rfl⟩
      | verifySpans => exact (hasks (.inr (.inl hkind))).scanStep ⟨rfl, rfl, rfl⟩
      | abort => exact (hasks (.inr (.inr hkind))).scanStep ⟨rfl, rfl, rfl⟩
  · cases hpending : s.reader.sweepPending with
    | false => exact (controlRead_stops data s hstage howner hpending).scanStep ⟨rfl, rfl, rfl⟩
    | true => exact (controlRead_restarts data s hstage (.inl ⟨howner, hpending⟩)).scanStep ⟨rfl, rfl, rfl⟩

/-! ### The hand-back (09 R163 R164) -/

/-- The next request index after the slot in hand (09 R163). -/
def State.indexAfter (s : State) : Nat := if s.reader.nextIndex + 1 < s.params.slotCount then s.reader.nextIndex + 1 else 0

/-- The slot in hand is back with the host. -/
def State.handedBack (s : State) : State := setEvent .requestDone { s with
  reader := { s.reader with nextIndex := s.indexAfter, processed := s.reader.processed + 1, stage := .none } }

theorem requestHandbackDone_eq (data : Word) (s : State) (r : Requester) (x : Access) (hport : s.master.port = some (r, x))
    (htag : x.tag = .reqHandback) : exec (.requestHandbackDone data) s = .next (settle (handbackDone (endAccess x s))) := by
  have hlast : decide (s.portTag = some .reqHandback) = true := by simp [State.portTag, hport, htag]
  show Host.Outcome.next (endOf (decide (s.portTag = some .reqHandback)) data s) = _
  rw [endOf_response _ data s r x hport hlast, htag]
  rfl

theorem handbackDone_rests (s : State) (h : ¬ (s.run = .running ∧ s.reader.sweep = .requests)) : handbackDone s = s.handedBack :=
  if_neg h

/-- In RUNNING the scan reads the control word at the new index. -/
theorem handbackDone_goesOn (s : State) (h : s.run = .running ∧ s.reader.sweep = .requests) :
    HandsOver { s.handedBack with reader := { s.handedBack.reader with stage := .control } } (handbackDone s)
      (handedTo .request [⟨slotAddr s s.indexAfter 0x00, none, .reqControl⟩]) := by
  have hread : handbackDone s = readControlWord s.handedBack := if_pos h
  rw [hread]
  exact hand_handsOver _ _ _

end Sys2Proof.Machine

open Sys2Proof Sys2Proof.Machine

/-- Settles O52: the read of the control word by owner, count of slots processed and kind, and the hand-back by whether the scan goes on. -/
theorem requestScanTakesSlotsInRingOrder : Obligations.RequestScanTakesSlotsInRingOrder := by
  intro data s slot index
  refine ⟨?_, ?_⟩
  · intro hs hstage engine full kind ended
    let p := s.portFreed
    obtain ⟨hframe, hregs, hindex⟩ := controlRead_scanStep data p hstage
    obtain ⟨hhost, hbytes⟩ := settle_keeps (s := s) (congrArg Surround.host (controlRead_surround data p))
    refine ⟨_, requestControlReadDone_eq data s hs, hindex, hframe, hregs, hhost, hbytes, fun howner hpending => ?_, fun hcase => ?_,
      fun howner hfull hkind => ?_, fun howner hfull hkind => ?_, fun i howner hfull hkind hi => ?_⟩
    · have h := controlRead_stops data p hstage howner hpending
      exact ⟨congrArg (·.reader) h.frame, h.queue .request⟩
    · have h := controlRead_restarts data p hstage hcase
      exact ⟨congrArg (·.reader) h.frame, congrArg (·.regs.pollNow) h.frame, congrArg (·.custody.queue) h.frame, h.queue .request⟩
    · have h := controlRead_asks data p hstage howner hfull hkind
      exact ⟨congrArg (·.reader) h.frame, h.queue .request⟩
    · have h := controlRead_declines data p hstage howner hfull hkind
      exact ⟨h.frame, h.queue .request⟩
    · have h := controlRead_starts data p hstage howner hfull hkind i hi
      exact ⟨h.campaign, h.others, h.nextId, h.custody, h.slotWord, h.answer⟩
  · intro r x hport htag next goesOn
    let p := endAccess x s
    have hdone : p.handedBack.hasEvent .requestDone = true := by simp [State.handedBack]
    have hothers : ∀ e, e ≠ .requestDone → p.handedBack.hasEvent e = s.hasEvent e := fun e he => by
      rw [State.handedBack, setEvent_hasEvent, decide_eq_false he.symm, Bool.false_or]
      rfl
    refine ⟨_, requestHandbackDone_eq data s r x hport htag, fun a ha => ?_, ?_⟩
    · have h := response_outside data s r x hport a ha
      rwa [htag] at h
    · by_cases h : goesOn
      · have hread := handbackDone_goesOn p h
        have hevents : ∀ e, (handbackDone p).hasEvent e = p.handedBack.hasEvent e := fun e => congrArg (·.hasEvent e) hread.frame
        rw [if_pos h, if_pos h]
        refine ⟨(hevents _).trans hdone, fun e he => (hevents e).trans (hothers e he), ?_, congrArg (·.reader) hread.frame,
          hread.queue .request⟩
        rw [hread.frame]
        rfl
      · rw [handbackDone_rests p h, if_neg h, if_neg h]
        exact ⟨hdone, hothers, rfl, rfl, (List.append_nil _).symm⟩

end

section
/-! PROOF. A request's last argument word (09 R164 R165): the answers of VERIFY_CIRCUIT, VERIFY_SPANS (03 R51 R52) and ABORT (03 R62). -/

namespace Sys2Proof.Machine

/-! ### The last argument word (09 R164) -/

/-- The word of the last argument returns: the request is acted on with all its arguments. -/
theorem lastArgument_acts {k : RequestKind} {control : Word} {got : List Word} {s : State} (data : Word) (hs : s.readsWith .reqArg)
    (hstage : s.reader.stage = .args control got) (hkind : requestKind control = k) (hlength : got.length + 1 = (argOffsets k).length) :
    endOf (endsArgs k s) data s = settle (actOnRequest control (got ++ [data]) s.portFreed) := by
  have hlast : endsArgs k s = true := by simp [endsArgs, portTag_of_readsWith hs, hstage, hkind, hlength]
  have hnone : (argOffsets (requestKind control))[(got ++ [data]).length]? = none := by simp [hkind, hlength]
  rw [endOf_read data hs hlast]
  simp only [deliver, argRead, portFreed_reader, hstage, nextArg, hnone]

/-! ### VERIFY_CIRCUIT (03 R52) -/

section Circuit

variable (k : Nat) (cls : Class) (index : Nat) (s : State)

theorem answerCircuit_outside (h : s.params.circuitCount ≤ index) : answerCircuit k cls index s = (s, ⟨.badArgs, 0⟩) := if_pos h

theorem answerCircuit_notWatched (h : index < s.params.circuitCount) (hwatched : (s.mapEntry index).engine ≠ .watched)
    (hclaimed : (s.mapEntry index).engine ≠ .claimed) : answerCircuit k cls index s = (s, ⟨.notWatched, 0⟩) :=
  (if_neg (Nat.not_le.2 h)).trans (if_pos ⟨hwatched, hclaimed⟩)

theorem answerCircuit_watched (h : index < s.params.circuitCount)
    (hengine : (s.mapEntry index).engine = .watched ∨ (s.mapEntry index).engine = .claimed) :
    answerCircuit k cls index s = startCampaign k cls (.single index) s :=
  (if_neg (Nat.not_le.2 h)).trans (if_neg fun hno => hengine.elim hno.1 hno.2)

end Circuit

/-! ### VERIFY_SPANS (03 R51) -/

theorem distinctSpans_ne_nil (l acc : List Nat) (h : acc ≠ []) : distinctSpans acc l ≠ [] := by
  induction l generalizing acc with
  | nil => exact h
  | cons x l ih =>
    rw [distinctSpans]
    split
    · exact ih acc h
    · exact ih _ (List.append_ne_nil_of_right_ne_nil _ (List.cons_ne_nil _ _))

/-- A list of span ids that is not empty names a span. -/
theorem requestSpans_ne_nil (ids : List Nat) (h : ids ≠ []) (hids : ∀ x ∈ ids, x < 4095) : requestSpans ids ≠ [] := by
  cases ids with
  | nil => exact absurd rfl h
  | cons x rest =>
    have hx : ¬ (4095 ≤ x ∨ x ∈ ([] : List Nat)) := by simpa using hids x List.mem_cons_self
    rw [requestSpans, distinctSpans, if_neg hx]
    exact distinctSpans_ne_nil rest _ (List.cons_ne_nil _ _)

/-- The number of span ids that a request's arguments name. -/
def spanCount (args : List Word) : Nat := (args.getD 0 0).toNat

/-- The span ids of a request's arguments, as many as it names. -/
def spanIds (args : List Word) : List Nat := (List.range (spanCount args)).map (halfword (args.drop 1))

theorem spanIds_ne_nil (args : List Word) (h : spanCount args ≠ 0) : spanIds args ≠ [] := by
  simpa [spanIds] using h

section Spans

variable (k : Nat) (cls : Class) (args : List Word) (s : State)

theorem answerSpans_bad (h : spanCount args = 0 ∨ 8 < spanCount args ∨ ∃ x ∈ spanIds args, 4095 ≤ x) :
    answerSpans k cls args s = (s, ⟨.badArgs, 0⟩) := by
  by_cases hcount : spanCount args = 0 ∨ 8 < spanCount args
  · exact if_pos hcount
  · have hid : (spanIds args).any (fun x => decide (4095 ≤ x)) = true := by
      simpa using (or_assoc.2 h).resolve_left hcount
    exact (if_neg hcount).trans (if_pos hid)

theorem answerSpans_good (hzero : spanCount args ≠ 0) (height : spanCount args ≤ 8) (hids : ∀ x ∈ spanIds args, x < 4095) :
    answerSpans k cls args s = startCampaign k cls (.list (requestSpans (spanIds args))) s := by
  have hcount : ¬ (spanCount args = 0 ∨ 8 < spanCount args) := by omega
  have hid : ¬ (spanIds args).any (fun x => decide (4095 ≤ x)) = true := by simpa using hids
  exact (if_neg hcount).trans (if_neg hid)

end Spans

/-! ### ABORT (03 R62) -/

theorem slotOfId_eq_none (s : State) (id : Nat) (h : ∀ i, (s.campaign i).state = .free ∨ (s.campaign i).id ≠ id) :
    slotOfId s id = none := by
  cases hslot : slotOfId s id with
  | none => rfl
  | some i =>
    have hi := (pick_eq_some _ _ i hslot).1
    simp only [Bool.and_eq_true, decide_eq_true_eq] at hi
    exact ((h i).elim hi.1 (· hi.2)).elim

theorem slotOfId_some {s : State} {id : Nat} {i : Fin 8} (h : slotOfId s id = some i) :
    (s.campaign i).state ≠ .free ∧ (s.campaign i).id = id := by
  simpa using (pick_eq_some _ _ i h).1

section Abort

variable (id : Nat) (s : State)

theorem answerAbort_unknown (h : id = 0 ∨ 255 < id ∨ ∀ i, (s.campaign i).state = .free ∨ (s.campaign i).id ≠ id) :
    answerAbort id s = (s, ⟨.noSuchCampaign, 0⟩) := by
  by_cases hid : id = 0 ∨ 255 < id
  · exact if_pos hid
  · have hnone := slotOfId_eq_none s id ((or_assoc.2 h).resolve_left hid)
    simp [answerAbort, hid, abortCampaign, hnone]

variable (hlow : 1 ≤ id) (hhigh : id ≤ 255)

include hlow hhigh

/-- An id in its range is answered by what the Campaign Controller finds. -/
theorem answerAbort_asks (t : State) (found : Bool) (h : abortCampaign id s = (t, found)) :
    answerAbort id s = (t, if found then ⟨.aborted, id⟩ else ⟨.noSuchCampaign, 0⟩) := by
  have hid : ¬ (id = 0 ∨ 255 < id) := by omega
  simp [answerAbort, hid, h]

variable (i : Fin 8) (hslot : slotOfId s id = some i)

include hslot

/-- A campaign whose SUMMARY is on offer is past its abort. -/
theorem answerAbort_offered (h : s.ctrl.offer = some i) : answerAbort id s = (s, ⟨.noSuchCampaign, 0⟩) :=
  answerAbort_asks id s hlow hhigh s false (by simp [abortCampaign, hslot, h])

theorem answerAbort_again (h : s.ctrl.offer ≠ some i) (hstate : (s.campaign i).state = .aborting) :
    answerAbort id s = (s, ⟨.aborted, id⟩) :=
  answerAbort_asks id s hlow hhigh s true (by simp [abortCampaign, hslot, h, hstate])

theorem answerAbort_begins (h : s.ctrl.offer ≠ some i) (hstate : (s.campaign i).state ≠ .aborting) :
    answerAbort id s = (becomeAborting i s, ⟨.aborted, id⟩) := by
  refine answerAbort_asks id s hlow hhigh (becomeAborting i s) true ?_
  have hused := (slotOfId_some hslot).1
  cases hc : (s.campaign i).state with
  | free => exact absurd hc hused
  | aborting => exact absurd hc hstate
  | selecting => simp [abortCampaign, hslot, h, hc]
  | draining => simp [abortCampaign, hslot, h, hc]

end Abort

/-! ### What an abort hands over (03 R62 to R64) -/

/-- The accesses of a requester whose tags are given up ask for nothing. -/
theorem orphan_queue_map (p : Tag → Bool) (s : State) (q : Requester) : (orphan p s).queue q = (s.queue q).map (orphanAccess p) :=
  vmap_get _ _ _

theorem foldl_queue_rests (f : State → Fin 64 → State) (q : Requester) (h : ∀ s e, (f s e).queue q = s.queue q) (l : List (Fin 64))
    (s : State) : (l.foldl f s).queue q = s.queue q := by
  induction l generalizing s with
  | nil => rfl
  | cons e l ih => exact (ih (f s e)).trans (h s e)

theorem abortOwned_queue (i : Fin 8) (q : Requester) (hq : q ≠ .custody) (s : State) (e : Fin 64) :
    (abortOwned i s e).queue q = s.queue q := by
  by_cases h : (s.entry e).state.isOpen = true ∧ (s.entry e).owner = i
  · cases hj : (s.entry e).joiners with
    | nil =>
      rw [abortOwned_releases i e s h.1 h.2 hj]
      exact (releaseEntry_circuit e s).2.2 q hq
    | cons j rest =>
      rw [abortOwned_passes i e s h.1 h.2 j rest hj]
      rfl
  · rw [abortOwned_rests i e s ((not_and_or.1 h).imp_left Bool.eq_false_iff.2)]

theorem abortJoined_queue (i : Fin 8) (q : Requester) (s : State) (e : Fin 64) : (abortJoined i s e).queue q = s.queue q := by
  by_cases h : (s.entry e).state ≠ .free ∧ i ∈ (s.entry e).joiners
  · rw [abortJoined_leaves i e s h.1 h.2]
    rfl
  · rw [abortJoined_rests i e s ((not_and_or.1 h).imp_left not_not.1)]

/-- An abort hands over engine words and the slot word; elsewhere it gives up the step's Reach Map read alone. -/
theorem becomeAborting_queue_other (i : Fin 8) (s : State) (q : Requester) (hcustody : q ≠ .custody) (hcampaign : q ≠ .campaign) :
    (becomeAborting i s).queue q = (s.queue q).map (orphanAccess (fun g => decide (g = .reach i))) := by
  rw [becomeAborting_eq, slotWordWrite_queue, if_neg hcampaign, entriesGivenUp, foldl_queue_rests _ q (abortJoined_queue i q),
    foldl_queue_rests _ q (abortOwned_queue i q hcustody)]
  exact orphan_queue_map _ _ q

/-- The answer ABORTED is handed over after the abort's own accesses. -/
theorem actOnRequest_aborts {control : Word} {args : List Word} {s : State} {i : Fin 8} {a : Answer}
    (hanswer : answerRequest control args s = (becomeAborting i s, a)) :
    let t := becomeAborting i s
    let u := actOnRequest control args s
    u = { s with reader := u.reader, master := u.master, ctrl := u.ctrl, custody := u.custody, probes := u.probes } ∧
    u.ctrl = t.ctrl ∧ u.probes = t.probes ∧ u.custody = t.custody ∧ u.reader = { s.reader with stage := .answered } ∧
    u.queue .request =
      (s.queue .request).map (orphanAccess (fun g => decide (g = .reach i))) ++ answerAccesses s control a := by
  intro t u
  have hframe : t = { s with ctrl := t.ctrl, probes := t.probes, custody := t.custody, master := t.master } :=
    becomeAborting_frame i s
  have hqueue : t.queue .request = _ := becomeAborting_queue_other i s .request Requester.noConfusion Requester.noConfusion
  have hover : HandsOver t.answered u _ := actOnRequest_handsOver hanswer (congrArg (·.params) hframe)
  have hreader : t.reader = s.reader := congrArg (·.reader) hframe
  clear_value t u
  refine ⟨?_, congrArg (·.ctrl) hover.frame, congrArg (·.probes) hover.frame, congrArg (·.custody) hover.frame, ?_, ?_⟩
  · rw [hover.frame, hframe]
    rfl
  · rw [← hreader]
    exact congrArg (·.reader) hover.frame
  · rw [← hqueue]
    exact hover.queue .request

end Sys2Proof.Machine

open Sys2Proof Sys2Proof.Machine

/-- Settles O53: each of the three requests by the branch of its answer; the answers without an effect, and the creations, are one argument
each. -/
theorem requestsAreAnsweredAtTheirLastArgument : Obligations.RequestsAreAnsweredAtTheirLastArgument := by
  intro data control got s hs hstage k n ids slot answers only creates ends
  let p := s.portFreed
  let args := got ++ [data]
  let u := actOnRequest control args p
  have hends : ∀ (c : Instr) (claim : State → Prop), exec c s = .next (settle u) → claim u → ends c claim := by
    intro c claim hexec hclaim
    obtain ⟨hhost, hbytes⟩ := settle_keeps (s := s) (congrArg Surround.host (actOnRequest_surround control args p))
    exact ⟨u, hexec, hhost, hbytes, hclaim⟩
  have hanswers : ∀ code id, answerRequest control args p = (p, ⟨code, id⟩) →
      answers u code id ∧ u = { s.portFreed with reader := u.reader, master := u.master } := by
    intro code id h
    have hover : HandsOver p.answered u _ := actOnRequest_handsOver h rfl
    refine ⟨⟨congrArg (·.reader) hover.frame, hover.queue .request⟩, ?_⟩
    rw [hover.frame]
    rfl
  have hcreates : ∀ set, set ≠ .list [] → answerRequest control args p = startCampaign k (requestClass control) set p →
      creates u set := by
    intro set hset h
    refine ⟨fun hfull => hanswers .noSlot 0 (h.trans (startCampaign_full _ _ _ p hfull)), fun i hi => ?_⟩
    have hstart : StartAnswered i control set p u := actOnRequest_starts h hset hi
    refine ⟨_, ⟨hstart.reader, hstart.answer⟩, rfl, hstart.nextId, hstart.campaign, hstart.others, hstart.slotWord, hstart.queues,
      hstart.frame, hstart.custody.trans ?_⟩
    cases set <;> rfl
  refine ⟨fun hkind hgot => ?_, fun hkind hgot => ?_, fun hkind hgot => ?_⟩
  · have hanswer : answerRequest control args p = answerCircuit k (requestClass control) data.toNat p := by
      simp only [answerRequest, hkind, args, hgot]
      rfl
    refine hends _ _ (congrArg Host.Outcome.next (lastArgument_acts data hs hstage hkind (by rw [hgot]; rfl))) ?_
    intro index
    exact ⟨fun h => hanswers _ _ (hanswer.trans (answerCircuit_outside k _ index p h)),
      fun h hwatched hclaimed => hanswers _ _ (hanswer.trans (answerCircuit_notWatched k _ index p h hwatched hclaimed)),
      fun h hengine => hcreates _ SpanSet.noConfusion (hanswer.trans (answerCircuit_watched k _ index p h hengine))⟩
  · have hcount : spanCount args = n := congrArg BitVec.toNat (List.getD_append got [data] 0 0 (by omega))
    have hids : spanIds args = ids := by rw [spanIds, hcount]
    have hanswer : answerRequest control args p = answerSpans k (requestClass control) args p := by
      simp only [answerRequest, hkind]
      rfl
    refine hends _ _ (congrArg Host.Outcome.next (lastArgument_acts data hs hstage hkind (by rw [hgot]; rfl))) ?_
    rw [← hids, ← hcount]
    refine ⟨fun h => hanswers _ _ (hanswer.trans (answerSpans_bad k _ args p h)), fun hzero height hlow => ?_⟩
    exact hcreates _ (fun h => requestSpans_ne_nil _ (spanIds_ne_nil args hzero) hlow (SpanSet.list.inj h))
      (hanswer.trans (answerSpans_good k _ args p hzero height hlow))
  · have hanswer : answerRequest control args p = answerAbort data.toNat p := by
      simp only [answerRequest, hkind, args, hgot]
      rfl
    refine hends _ _ (congrArg Host.Outcome.next (lastArgument_acts data hs hstage hkind (by rw [hgot]; rfl))) ?_
    intro id
    refine ⟨fun h => hanswers _ _ (hanswer.trans (answerAbort_unknown id p h)),
      fun i hlow hhigh hslot => ⟨fun h => ?_, fun h hstate => ?_, fun h hstate => ?_⟩⟩
    · exact hanswers _ _ (hanswer.trans (answerAbort_offered id p hlow hhigh i hslot h))
    · exact hanswers _ _ (hanswer.trans (answerAbort_again id p hlow hhigh i hslot h hstate))
    · have hbegins := hanswer.trans (answerAbort_begins id p hlow hhigh i hslot h hstate)
      obtain ⟨hframe, hctrl, hprobes, hcustody, hreader, hqueue⟩ := actOnRequest_aborts hbegins
      obtain ⟨owned, joinedOut, counts, hcampaign⟩ := becomeAborting_campaign i p
      have hc : u.campaign i = _ := (congrArg (·.slots.get i) hctrl).trans hcampaign
      exact ⟨congrArg (·.state) hc, (congrArg (·.id) hc).trans (slotOfId_some hslot).2, congrArg (·.step) hc, hframe, hctrl,
        hprobes, hcustody, hreader, hqueue⟩

end

section
/-! PROOF. The canonical form of shared memory under every command and every step (log entry 2). -/

namespace Sys2Proof.Machine

/-- The state whose memory is in its canonical form. -/
def State.memoryCanonical (s : State) : Prop := memoryWf s.memory = true

/-- An event that leaves memory as it stands keeps its form through the service. -/
theorem settle_memoryCanonical {s t : State} (h : t.memory = s.memory) (hs : s.memoryCanonical) : (settle t).memoryCanonical := by
  rwa [State.memoryCanonical, settle_memory, h]

/-- Memory stands where the host side does. -/
theorem memory_of_host {s t : State} (h : t.surround.host = s.surround.host) : t.memory = s.memory := congrArg HostSide.memory h

theorem memory_of_surround {s t : State} (h : t.surround = s.surround) : t.memory = s.memory :=
  memory_of_host (congrArg Surround.host h)

theorem evalWindows_clock_memory (c : Clock) (s : State) : (evalWindows { s with clock := c }).memory = s.memory :=
  congrArg HostSide.memory (evalWindows_clock_hostSide c s)

/-- Every action of the part keeps the form: only the end of the access on the bus changes memory, by a word written. -/
theorem acts_memoryCanonical : Acts (fun s t => s.memoryCanonical → t.memoryCanonical) where
  stays _ := id
  release _ := id
  select _ _ := id
  events _ _ := id
  mask _ _ := id
  control s value h := by
    rwa [State.memoryCanonical, memory_eq, controlWrite_hostSide]
  base s value := settle_memoryCanonical (baseWrite_memory value s)
  mark s value := settle_memoryCanonical (memory_of_host (markWrite_host value s))
  time s _ := settle_memoryCanonical (evalWindows_clock_memory _ s)
  response s data := busResponse_memoryWf data s
  fault s := faultAccess_memoryWf s
  second s := settle_memoryCanonical (evalWindows_clock_memory _ s)
  settled s w := settle_memoryCanonical (memory_of_surround (settleCheck_surround w s))
  lost s k h := by rwa [State.memoryCanonical, memory_of_host (signalLost_host k s)]
  lostServed s k := settle_memoryCanonical (memory_of_host (signalLost_host k s))
  present s k h := by rwa [State.memoryCanonical, memory_of_host (signalPresent_host k s)]
  presentServed s k := settle_memoryCanonical (memory_of_host (signalPresent_host k s))
  holdOff s k := settle_memoryCanonical (memory_of_host (holdOffExpires_host k s))
  sent _ _ := id
  frame s k bs := settle_memoryCanonical (memory_of_host (receiveFrame_host k bs s))
  gap s k := settle_memoryCanonical (modSched_memory k _ s)
  timeout s i := settle_memoryCanonical (memory_of_surround (timeoutEntry_surround i s))
  backoff s i := settle_memoryCanonical (memory_of_surround (backoffDone_surround i s))
  aligned s := settle_memoryCanonical (memory_of_surround (finishAlignment_surround s))
  polled s := settle_memoryCanonical (memory_of_surround (poll_surround s))

theorem tick_memoryCanonical (s : State) (h : s.memoryCanonical) : (tick s).memoryCanonical := by
  rwa [State.memoryCanonical, tick_memory]

end Sys2Proof.Machine

open Sys2Proof Sys2Proof.Machine

/-- Settles O57: the hold, every action and every millisecond keep the form that a word written keeps. -/
theorem everyStepKeepsMemoryCanonical : Obligations.EveryStepKeepsMemoryCanonical :=
  step_keeps State.memoryCanonical acts_memoryCanonical (fun _ _ => id) hold_memoryWf tick_memoryCanonical

end

section
/-! PROOF. The run-state changes of the table (10 R173): a halt request's, a load's, the end of a stop, a bus fault's. -/

namespace Sys2Proof.Machine

/-! ### A halt request (10 R173) -/

/-- A halt request changes the run state alone of the registers: abandoning a stalled entry in STOPPING or HALTED ends no load. -/
theorem haltRequest_regs (s : State) : (haltRequest s).regs = { s.regs with runState := s.run.afterHalt } := by
  have hrest : ∀ r, s.run = r → s.regs = { s.regs with runState := r } := by
    rintro _ rfl
    rfl
  have hstopped : ∀ t : State, t.run = .halted ∨ t.run = .stopping → (haltJournal t).regs = t.regs := fun t h =>
    haltJournal_regs t (by rintro hr; simp [hr] at h) (by rintro hr; simp [hr] at h)
  unfold haltRequest
  split
  · next h => simpa [h, RunState.afterHalt] using hrest _ h
  · next h =>
    unfold haltLoading
    rw [hstopped _ (.inl (by simp [State.run, setRun]))]
    simp [h, setRun, RunState.afterHalt]
  · next h =>
    unfold haltRunning
    rw [hstopped _ (.inr (by simp [State.run, setRun]))]
    simp [h, setRun, RunState.afterHalt]
  · next h => simpa [h, RunState.afterHalt] using hrest _ h
  · next h => simp [h, setRun, RunState.afterHalt]

theorem haltRequest_run (s : State) : (haltRequest s).run = s.run.afterHalt := congrArg Regs.runState (haltRequest_regs s)

/-! ### The changes of the table -/

theorem RunState.mayBecome_refl (r : RunState) : r.mayBecome r = true := by cases r <;> rfl

theorem RunState.mayBecome_afterHalt (r : RunState) : r.mayBecome r.afterHalt = true := by cases r <;> rfl

theorem RunState.mayBecome_faulted (r : RunState) : r.mayBecome .faulted = true := by cases r <;> rfl

/-- The run state moves along the changes of the table. -/
def State.moves (s t : State) : Prop := s.run.mayBecome t.run = true

theorem moves_of_run {s t : State} (h : t.run = s.run) : s.moves t := by
  rw [State.moves, h]
  exact RunState.mayBecome_refl _

/-- The blocks' work leaves the run state, or ends a load. -/
theorem Drift.moves {s t : State} (h : Drift s.regs t.regs) : s.moves t := by
  rcases h.run with h | ⟨hl, hr⟩
  · exact moves_of_run h
  · show s.regs.runState.mayBecome t.regs.runState = true
    rw [hl, hr]
    rfl

theorem State.moves.settled {s t : State} (h : s.moves t) : s.moves (settle t) := by rwa [State.moves, settle_run]

/-- An event that leaves the registers as they stand, and its service. -/
theorem settle_moves {s t : State} (h : t.regs = s.regs) : s.moves (settle t) :=
  (moves_of_run (congrArg Regs.runState h)).settled

/-! ### The events that move it -/

theorem controlFields_run (value : Word) (s : State) : (controlFields value s).run = s.run := by
  unfold controlFields
  split <;> rfl

theorem controlWrite_moves (value : Word) (s : State) : s.moves (controlWrite value s) := by
  have hfields := controlFields_run value s
  simp only [controlWrite]
  split
  · refine State.moves.settled ?_
    rw [State.moves, haltRequest_run, hfields]
    exact RunState.mayBecome_afterHalt _
  · split
    · have htrigger : (controlFields value s).moves (trigger (controlFields value s)) :=
        (trigger_drift _ (Drift.refl _)).moves
      rw [State.moves, hfields] at htrigger
      exact State.moves.settled htrigger
    · exact moves_of_run hfields

/-- A BLOCK_BASE write in HALTED starts a load, or leaves the part HALTED (10 R170 R174). -/
theorem baseWrite_moves (value : Word) (s : State) : s.moves (baseWrite value s) := by
  unfold baseWrite
  split
  · next h =>
    rw [State.moves, h, startLoad]
    split <;> rfl
  · exact moves_of_run rfl

/-- A Control Block read may end its load in HALTED, the HALTED write ends a stop, and any other end of an access is the blocks' work. -/
theorem deliver_moves (g : Tag) (data : Word) (s : State) : s.moves (deliver g data s) := by
  by_cases hc : g = .controlBlock
  · subst hc
    rcases controlBlockRead_run data s with h | ⟨hl, hh⟩
    · exact moves_of_run h
    · show s.run.mayBecome (controlBlockRead data s).run = true
      rw [hl, hh]
      rfl
  · by_cases hh : g = .haltedWrite
    · subst hh
      show s.run.mayBecome (stoppingEnds s).run = true
      unfold stoppingEnds
      split
      · next h =>
        rw [h]
        rfl
      · exact RunState.mayBecome_refl _
    · exact (deliver_drift g data s hc hh).moves

theorem busResponse_moves (data : Word) (s : State) : s.moves (busResponse data s) := by
  unfold busResponse
  split
  · next x _ => exact State.moves.settled (deliver_moves x.tag data (endAccess x s))
  · exact moves_of_run rfl

theorem faultAccess_moves (s : State) : s.moves (faultAccess s) := by
  unfold faultAccess
  split
  · exact RunState.mayBecome_faulted _
  · exact moves_of_run rfl

theorem reportChange_drift (k : Fin 4) {act : State → State} (h : ∀ s, (act s).regs = s.regs) (s : State) :
    Drift s.regs (reportChange k act s).regs := by
  simp only [reportChange, linkStateReport_regs]
  refine setEvent_drift _ _ ?_
  split
  · rw [h]
    exact Drift.refl _
  · exact Drift.refl _

theorem holdOffExpires_drift (k : Fin 4) (s : State) : Drift s.regs (holdOffExpires k s).regs := by
  unfold holdOffExpires
  split
  · exact reportChange_drift k (linkWentDown_regs k) (modLink k _ s)
  · exact reportChange_drift k (linkBecameUp_regs k) (modLink k _ s)
  · exact Drift.refl _
  · exact Drift.refl _

/-- Every action of the part moves the run state along the table. -/
theorem acts_moves : Acts State.moves where
  stays _ := moves_of_run rfl
  release _ := moves_of_run rfl
  select _ _ := moves_of_run rfl
  events _ _ := moves_of_run rfl
  mask _ _ := moves_of_run rfl
  control s value := controlWrite_moves value s
  base s value := (baseWrite_moves value s).settled
  mark s value := (moves_of_run (markWrite_run value s)).settled
  time _ _ := settle_moves (evalWindows_regs _)
  response s data := busResponse_moves data s
  fault s := faultAccess_moves s
  second s := settle_moves (secondTick_regs s)
  settled s w := settle_moves (settleCheck_regs w s)
  lost s k := moves_of_run (congrArg Regs.runState (signalLost_regs k s))
  lostServed s k := settle_moves (signalLost_regs k s)
  present s k := moves_of_run (congrArg Regs.runState (signalPresent_regs k s))
  presentServed s k := settle_moves (signalPresent_regs k s)
  holdOff s k := (holdOffExpires_drift k s).moves.settled
  sent _ _ := moves_of_run rfl
  frame s k bs := settle_moves (receiveFrame_regs k bs s)
  gap s k := settle_moves (modSched_regs k _ s)
  timeout s i := settle_moves (timeoutEntry_regs i s)
  backoff s i := settle_moves (backoffDone_regs i s)
  aligned s := settle_moves (finishAlignment_regs s)
  polled s := settle_moves (poll_regs s)

theorem tick_moves (s : State) : s.moves (tick s) := by
  simp only [tick]
  split
  · exact moves_of_run (congrArg Regs.runState (countTimers_regs s))
  · exact settle_moves ((secondTick_regs _).trans (countTimers_regs s))

/-- A command that is no pin moves the run state along the table. -/
theorem exec_moves {c : Instr} {s t : State} (hc : c ≠ .powerOn ∧ c ≠ .resetAssert) (h : exec c s = .next t) : s.moves t := by
  rcases exec_acts acts_moves c h with ⟨-, hpin⟩ | h
  · exact absurd hpin (not_or.2 hc)
  · exact h

end Sys2Proof.Machine

open Sys2Proof Sys2Proof.Machine

/-- Settles O60: the command at the front, a timer's command and a millisecond each move the run state along the table. -/
theorem runStateMovesByTheTableOnly : Obligations.RunStateMovesByTheTableOnly := by
  intro s t hfront hstep
  rcases step_cases hstep with ⟨c, rest, hp, h⟩ | ⟨-, rfl | rfl | ⟨c, -, h1, h2, h⟩⟩
  · exact exec_moves (s := { s with pending := rest }) (hfront c (by rw [hp]; rfl)) h
  · exact RunState.mayBecome_refl _
  · exact tick_moves s
  · exact exec_moves ⟨h1, h2⟩ h

end

section
/-! PROOF. The register window (10 R168 R169 R172): what a DATA read returns, the interrupt line, and the writes of SELECT, EVENTS,
EVENT_MASK and CONTROL. -/

namespace Sys2Proof.Machine

/-! ### The bits of CONTROL (10 R168) -/

theorem RunState.code_lt (r : RunState) : r.code < 2 ^ 3 := by cases r <;> decide

theorem FaultCode.code_lt (c : FaultCode) : c.code < 2 ^ 4 := by cases c <;> decide

theorem controlWord_toNat (r : Regs) : (controlWord r).toNat =
    r.runState.code + 16 * r.faultCode.code + 512 * r.pollNow.toNat + 1024 * r.irqEn.toNat := by
  have hrun := r.runState.code_lt
  have hfault := r.faultCode.code_lt
  have hpoll := r.pollNow.toNat_lt
  have hirq := r.irqEn.toNat_lt
  have h0 := field_toNat r.runState.code 3 0 hrun (by decide)
  have h1 := or_field_toNat h0 r.faultCode.code 4 4 (by omega) hfault (by decide)
  have h2 := or_field_toNat h1 r.pollNow.toNat 1 9 (by omega) hpoll (by decide)
  have h3 := or_field_toNat h2 r.irqEn.toNat 1 10 (by omega) hirq (by decide)
  rw [controlWord, h3]
  omega

/-! ### The event bits (10 R171 R172) -/

theorem Event.index_lt (e : Event) : e.index < 10 := by cases e <;> decide

/-- Every bit of EVENTS and EVENT_MASK is an event's. -/
theorem Event.exists_index (i : Nat) (h : i < 10) : ∃ e : Event, e.index = i := by
  have hall : ∀ i : Fin 10, ∃ e ∈ [Event.loadDone, .loadFault, .busFault, .journalNew, .journalStall, .campaignDone, .requestDone,
      .linkChange, .windowChange, .regRefused], e.index = i.val := by decide
  obtain ⟨e, -, he⟩ := hall ⟨i, h⟩
  exact ⟨e, he⟩

/-- A 10-bit register is not 0 exactly where an event's bit is set in it. -/
theorem eventBits_ne_zero_iff (x : BitVec 10) : x ≠ 0 ↔ ∃ e : Event, x.getLsbD e.index = true := by
  refine ⟨fun h => ?_, fun ⟨e, he⟩ hx => ?_⟩
  · by_contra hnone
    refine h (BitVec.eq_of_getLsbD_eq fun i hi => ?_)
    obtain ⟨e, rfl⟩ := Event.exists_index i hi
    have hclear : x.getLsbD e.index = false := by simpa using fun hset => hnone ⟨e, hset⟩
    simpa using hclear
  · simp [hx] at he

theorem irqLine_iff (s : State) : irqLine s = true ↔
    s.held = false ∧ s.regs.irqEn = true ∧ ∃ e : Event, s.hasEvent e = true ∧ s.regs.mask.getLsbD e.index = true := by
  simp only [irqLine, Bool.and_eq_true, Bool.not_eq_true', decide_eq_true_eq, eventBits_ne_zero_iff, BitVec.getLsbD_and, and_assoc,
    State.hasEvent]

/-! ### A read of DATA (10 R168 R180) -/

theorem readData_held (s : State) (h : s.held = true) : readData s = 0 := if_pos h

/-- The register at an index (10 R168). -/
def State.registerAt (s : State) (index : Nat) : Word :=
  match index with
  | 0 => 0x4A840C01
  | 1 => controlWord s.regs
  | 2 => s.regs.events.setWidth 32
  | 3 => s.regs.mask.setWidth 32
  | 4 => s.regs.blockBase
  | 5 => BitVec.ofNat 32 s.journal.w
  | 6 => BitVec.ofNat 32 s.journal.m
  | 7 => s.clock.netTime
  | 8 => s.regs.faultAddr
  | _ => 0

/-- A read of DATA returns the register that SELECT names. -/
theorem readData_eq_registerAt (s : State) (h : s.held = false) : readData s = s.registerAt s.regs.select.toNat := by
  rw [readData, if_neg (by rw [h]; decide)]
  rfl

/-! ### The register writes (10 R168 R169) -/

/-- The part with the SELECT index, the EVENTS bits or the mask that a write leaves. -/
def selectTaken (value : Word) (s : State) : State := { s with regs := { s.regs with select := value.setWidth 4 } }

def eventsCleared (value : Word) (s : State) : State :=
  { s with regs := { s.regs with events := s.regs.events &&& ~~~ value.setWidth 10 } }

def maskTaken (value : Word) (s : State) : State := { s with regs := { s.regs with mask := value.setWidth 10 } }

theorem selectWrite_arm (value : Word) (s : State) : exec (.selectWrite value) s = whenActive (selectTaken value) s := by rfl
theorem halt_arm (value : Word) (s : State) : exec (.halt value) s = whenSelected 1 (controlWrite value) s := by rfl
theorem pollNow_arm (value : Word) (s : State) : exec (.pollNow value) s = whenSelected 1 (controlWrite value) s := by rfl
theorem eventsWrite_arm (value : Word) (s : State) : exec (.eventsWrite value) s = whenSelected 2 (eventsCleared value) s := by rfl
theorem eventMaskWrite_arm (value : Word) (s : State) : exec (.eventMaskWrite value) s = whenSelected 3 (maskTaken value) s := by rfl
theorem blockBaseWrite_arm (value : Word) (s : State) :
    exec (.blockBaseWrite value) s = whenSelected 4 (fun s => settle (baseWrite value s)) s := by rfl
theorem journalMarkWrite_arm (value : Word) (s : State) :
    exec (.journalMarkWrite value) s = whenSelected 6 (fun s => settle (markWrite value s)) s := by rfl
theorem netTimeWrite_arm (value : Word) (s : State) : exec (.netTimeWrite value) s =
    whenSelected 7 (fun s => settle (evalWindows { s with clock := { netTime := value, subCount := 0 } })) s := by rfl

theorem whenActive_eq (f : State → State) (s : State) (h : s.held = false) : whenActive f s = .next (f s) := by
  rw [whenActive, if_neg (by rw [h]; decide)]

theorem whenSelected_eq (index : Nat) (f : State → State) (s : State) (h : s.held = false) (hi : s.regs.select.toNat = index) :
    whenSelected index f s = .next (f s) := by
  rw [whenSelected, if_pos (by simp [h, hi])]

/-- A register's command leaves the state while the part is held or SELECT names another register. -/
theorem whenSelected_ignored (index : Nat) (f : State → State) (s : State) (h : s.held = true ∨ s.regs.select.toNat ≠ index) :
    whenSelected index f s = .next s := by
  rw [whenSelected, if_neg (by simpa using fun hheld => h.resolve_left (by simp [hheld]))]

theorem irqEnWrite_eq (value : Word) (s : State) (h : s.held = false) (hi : s.regs.select = 1) :
    exec (.irqEnWrite value) s = .next (controlWrite value s) :=
  congrArg Host.Outcome.next (if_neg (by simp [h, hi]))

theorem irqEnWrite_ignored (value : Word) (s : State) (h : s.held = true ∨ s.regs.select.toNat ≠ 1) :
    exec (.irqEnWrite value) s = .next s :=
  congrArg Host.Outcome.next (if_pos (h.imp_right fun hi hs => hi (congrArg BitVec.toNat hs)))

/-- A CONTROL write without HALT and POLL_NOW sets IRQ_EN alone (10 R169). -/
theorem controlWrite_plain (value : Word) (s : State) (hhalt : value.getLsbD 8 = false) (hpoll : value.getLsbD 9 = false) :
    controlWrite value s = { s with regs := { s.regs with irqEn := value.getLsbD 10 } } := by
  simp only [controlWrite, controlFields, hhalt, hpoll, Bool.false_and, Bool.false_eq_true, if_false]

/-- The low four bits of a word (10 R168). -/
theorem lowFour_eq (value : Word) : (value.setWidth 4).setWidth 32 = value &&& 15#32 := by
  refine BitVec.eq_of_toNat_eq ?_
  rw [BitVec.toNat_setWidth_of_le (by decide), BitVec.toNat_setWidth, BitVec.toNat_and]
  exact (Nat.and_two_pow_sub_one_eq_mod value.toNat 4).symm

end Sys2Proof.Machine

open Sys2Proof Sys2Proof.Machine

/-- Settles O2: the fields of CONTROL share no bit, and every bit of EVENTS is an event's. -/
theorem registerReadsAndInterruptLine : Obligations.RegisterReadsAndInterruptLine := by
  intro s
  refine ⟨readData_held s, fun hheld => ?_, irqLine_iff s⟩
  have hread : ∀ n : BitVec 4, s.regs.select = n → readData s = s.registerAt n.toNat := fun n hn => by
    rw [readData_eq_registerAt s hheld, hn]
  refine ⟨hread 0, fun h => ?_, fun h e => ?_, hread 3, hread 4, hread 5, hread 6, hread 7, hread 8, fun h => ?_⟩
  · rw [hread 1 h]
    exact controlWord_toNat s.regs
  · rw [hread 2 h]
    have hindex := e.index_lt
    show (s.regs.events.setWidth 32).getLsbD e.index = s.hasEvent e
    simp [State.hasEvent, show e.index < 32 by omega]
  · obtain ⟨m, hm⟩ := Nat.exists_eq_add_of_le' h
    rw [readData_eq_registerAt s hheld, hm]
    rfl

/-- Settles O3: the commands of one register under the SELECT test they share, and the bits that each value sets. -/
theorem registerWritesActOnTheSelectedRegister : Obligations.RegisterWritesActOnTheSelectedRegister := by
  intro value s
  refine ⟨fun hheld => ?_, fun hheld => ?_, rfl, ?_, fun hheld hselect => ?_, fun hheld hselect => ?_,
    fun hheld hselect hhalt hpoll => ?_⟩
  · rw [selectWrite_arm, whenActive, if_pos hheld]
  · exact ⟨_, (selectWrite_arm value s).trans (whenActive_eq _ s hheld), lowFour_eq value, rfl⟩
  · simp only [List.forall_mem_cons, List.not_mem_nil, false_imp_iff, implies_true, and_true, halt_arm, pollNow_arm, eventsWrite_arm,
      eventMaskWrite_arm, blockBaseWrite_arm, journalMarkWrite_arm, netTimeWrite_arm]
    exact ⟨whenSelected_ignored 1 _ s, whenSelected_ignored 1 _ s, irqEnWrite_ignored value s, whenSelected_ignored 2 _ s,
      whenSelected_ignored 3 _ s, whenSelected_ignored 4 _ s, whenSelected_ignored 6 _ s, whenSelected_ignored 7 _ s⟩
  · refine ⟨_, (eventsWrite_arm value s).trans (whenSelected_eq 2 _ s hheld (congrArg BitVec.toNat hselect)), fun e => ?_, rfl⟩
    simp [eventsCleared, State.hasEvent, e.index_lt]
  · refine ⟨_, (eventMaskWrite_arm value s).trans (whenSelected_eq 3 _ s hheld (congrArg BitVec.toNat hselect)), fun e => ?_, rfl⟩
    simp [maskTaken, e.index_lt]
  · rw [irqEnWrite_eq value s hheld hselect, controlWrite_plain value s hhalt hpoll]

end

section
/-! PROOF. An access cut off (10 R178 R180): the hold of the pins, what reset leaves, and the bus fault. -/

namespace Sys2Proof.Machine

/-! ### An access cut off (log entry 5) -/

/-- The port is freed; memory and the free counter change at most. -/
theorem cutAccess_frame (s : State) : cutAccess s =
    { s.portFreed with memory := (cutAccess s).memory, freeCount := (cutAccess s).freeCount } := by
  unfold cutAccess
  split
  · split <;> rfl
  · rfl

/-- The word of a write on the bus is in memory, or no byte has changed. -/
theorem cutAccess_memory (s : State) : (cutAccess s).memory = s.memory ∨
    ∃ r x w, s.master.port = some (r, x) ∧ x.write = some w ∧ (cutAccess s).memory = writeWord s.memory x.addr w := by
  unfold cutAccess
  split
  · next r x hport =>
    split
    · next w hw =>
      by_cases hlands : Config.cutOffWriteLands s.freeCount = true
      · exact .inr ⟨r, x, w, hport, hw, if_pos hlands⟩
      · exact .inl (if_neg hlands)
    · exact .inl rfl
  · exact .inl rfl

theorem cutAccess_outside (s : State) (a : Nat) (ha : s.outsidePort a) :
    readByte (cutAccess s).memory a = readByte s.memory a := by
  rcases cutAccess_memory s with h | ⟨r, x, w, hport, hw, h⟩ <;> rw [h]
  exact readByte_writeWord_outside _ _ _ _ (ha r x w hport hw)

/-! ### The hold (10 R180) -/

theorem hold_pending (s : State) : (hold s).pending = s.pending := congrArg (·.pending) (cutAccess_frame s)

theorem hold_link (s : State) (k : Fin 4) : (hold s).link k = { signal := (s.link k).signal } := by
  have hlinks : (cutAccess s).links = s.links := congrArg (·.links) (cutAccess_frame s)
  show (vmap (fun l : Link => ({ signal := l.signal } : Link)) (cutAccess s).links).get k = _
  rw [hlinks, vmap_get]
  rfl

/-! ### The bus fault (10 R178, 05 R107) -/

theorem busFault_link (addr : Word) (s : State) (k : Fin 4) : (busFault addr s).link k = freezeLink (s.link k) := by
  have hlinks : (cutAccess s).links = s.links := congrArg (·.links) (cutAccess_frame s)
  show (vmap freezeLink (cutAccess s).links).get k = _
  rw [hlinks, vmap_get]
  rfl

theorem busFault_queue (addr : Word) (s : State) (q : Requester) : (busFault addr s).queue q = [] := replicate_get [] q.index

theorem busFault_master (addr : Word) (s : State) :
    (busFault addr s).master = { s.portFreed.master with queues := Vector.replicate 11 [] } := by
  show { (cutAccess s).master with queues := Vector.replicate 11 [] } = _
  rw [cutAccess_frame]

theorem busFault_regs (addr : Word) (s : State) : (busFault addr s).regs =
    { s.regs with runState := .faulted, events := s.regs.events ||| Event.busFault.bit, faultCode := .bus, faultAddr := addr } := by
  show ({ (cutAccess s).regs with
    runState := .faulted, faultCode := .bus, faultAddr := addr, events := (cutAccess s).regs.events ||| Event.busFault.bit } : Regs) = _
  rw [cutAccess_regs]

theorem busFault_frame (addr : Word) (s : State) : busFault addr s = { s with
    regs := (busFault addr s).regs, master := (busFault addr s).master, links := (busFault addr s).links
    memory := (busFault addr s).memory, freeCount := (busFault addr s).freeCount } := by
  unfold busFault
  rw [cutAccess_frame]
  rfl

/-- Both commands of a bus fault (10 R178). -/
theorem faults_eq (s : State) (r : Requester) (x : Access) (hport : s.master.port = some (r, x)) :
    exec .busErrorResponse s = .next (busFault x.addr s) ∧ exec .busTimeout s = .next (busFault x.addr s) := by
  have hfault : faultAccess s = busFault x.addr s := by simp only [faultAccess, hport]
  rw [← hfault]
  exact ⟨rfl, congrArg Host.Outcome.next (if_pos (by rw [hport]; rfl))⟩

theorem faults_without_access (s : State) (hport : s.master.port = none) :
    exec .busErrorResponse s = .next s ∧ exec .busTimeout s = .next s := by
  have hfault : faultAccess s = s := by simp only [faultAccess, hport]
  exact ⟨congrArg Host.Outcome.next hfault, congrArg Host.Outcome.next (if_neg (by rw [hport]; decide))⟩

end Sys2Proof.Machine

open Sys2Proof Sys2Proof.Machine

/-- Settles O1: the pins' hold with the access on the bus cut off, and the release. -/
theorem pinsHoldThePart : Obligations.PinsHoldThePart := fun s =>
  ⟨hold s, rfl, rfl, rfl, hold_pending s, rfl, rfl, rfl, rfl, rfl, rfl, rfl, rfl, rfl, rfl, rfl, rfl, rfl, hold_link s, rfl,
    cutAccess_outside s, cutAccess_memory s, rfl⟩

/-- Settles O12: the bus fault of the access on the bus, and its two commands with none there. -/
theorem busFaultStopsEveryBlock : Obligations.BusFaultStopsEveryBlock := by
  refine fun s => ⟨faults_without_access s, fun r x hport => ?_⟩
  obtain ⟨herror, htimeout⟩ := faults_eq s r x hport
  have hregs := busFault_regs x.addr s
  have hmaster := busFault_master x.addr s
  refine ⟨_, herror, htimeout, ?_, ?_, ?_, ?_, busFault_queue x.addr s, busFault_frame x.addr s, busFault_link x.addr s,
    cutAccess_outside s⟩
  · exact setEvent_hasEvent .busFault .busFault _
  · rw [hregs]
  · rw [hmaster]
    rfl
  · rw [hmaster]
    rfl

/-- Settles O56: the reset state by each SELECT index, with the journal of a part that is held. -/
theorem resetLeavesThePartHalted : Obligations.ResetLeavesThePartHalted := by
  refine ⟨rfl, rfl, rfl, rfl, rfl, by decide, rfl, ⟨Nat.zero_le _, fun k => ?_⟩, hold_sound State.reset⟩
  show ((Vector.replicate 4 ({} : Link)).get k).txQueue.length ≤ 32
  rw [replicate_get]
  exact Nat.zero_le _

end

section
/-! PROOF. The BLOCK_BASE write (10 R170 R174): refused, a fault of its alignment, or the start of a load. -/

namespace Sys2Proof.Machine

theorem addrOf_zero (base : Word) : addrOf base 0 = base := BitVec.add_zero base

/-- A load fault ends the load in HALTED with its code and address (10 R174). -/
theorem loadFault_eq (code : FaultCode) (addr : Word) (s : State) : loadFault code addr s = { s with
    regs := { s.regs with
      runState := .halted, events := s.regs.events ||| Event.loadFault.bit, faultCode := code, faultAddr := addr }
    loader := {} } := rfl

theorem loadFault_hasEvent (code : FaultCode) (addr : Word) (s : State) : (loadFault code addr s).hasEvent .loadFault = true :=
  setEvent_hasEvent .loadFault .loadFault _

/-- The part as it takes a new base in HALTED. -/
def State.baseStored (value : Word) (s : State) : State :=
  { s with regs := { s.regs with blockBase := value, faultCode := .none, runState := .loading } }

/-- The part as it reads the first Control Block word. -/
def State.loadBegun (value : Word) (s : State) : State :=
  handRead .loader value .controlBlock { s.baseStored value with loader := { step := .controlBlock } }

theorem baseWrite_refused (value : Word) (s : State) (h : s.run ≠ .halted) : baseWrite value s = setEvent .regRefused s := if_neg h

theorem baseWrite_misaligned (value : Word) (s : State) (h : s.run = .halted) (ha : value.toNat % 64 ≠ 0) :
    baseWrite value s = loadFault .baseAlign value (s.baseStored value) := (if_pos h).trans (if_pos ha)

theorem baseWrite_aligned (value : Word) (s : State) (h : s.run = .halted) (ha : value.toNat % 64 = 0) :
    baseWrite value s = s.loadBegun value := by
  refine ((if_pos h).trans (if_neg (not_not.2 ha))).trans ?_
  show handRead .loader (addrOf value 0) .controlBlock _ = _
  rw [addrOf_zero]
  rfl

/-- Whatever the write comes to, it reaches the registers, the Loader and the Memory Master alone. -/
theorem baseWrite_frame (value : Word) (s : State) : baseWrite value s = { s with
    regs := (baseWrite value s).regs, loader := (baseWrite value s).loader, master := (baseWrite value s).master } := by
  by_cases h : s.run = .halted
  · by_cases ha : value.toNat % 64 = 0
    · rw [baseWrite_aligned value s h ha]
      rfl
    · rw [baseWrite_misaligned value s h ha]
      rfl
  · rw [baseWrite_refused value s h]
    rfl

end Sys2Proof.Machine

open Sys2Proof Sys2Proof.Machine

/-- Settles O6: refused outside HALTED, and in HALTED by the value's alignment. -/
theorem blockBaseWriteStartsALoad : Obligations.BlockBaseWriteStartsALoad := by
  intro value s hheld hselect
  refine ⟨baseWrite value s, ?_, settle_run _, fun a => ?_, baseWrite_frame value s, fun hrun => ?_, fun hrun halign => ?_,
    fun hrun halign => ?_⟩
  · rw [blockBaseWrite_arm, whenSelected_eq 4 _ s hheld (congrArg BitVec.toNat hselect)]
  · rw [settle_memory, baseWrite_memory]
  · rw [baseWrite_refused value s hrun]
    exact ⟨setEvent_hasEvent .regRefused .regRefused s, rfl, rfl, rfl⟩
  · rw [baseWrite_misaligned value s hrun halign]
    refine ⟨loadFault_hasEvent _ _ _, ?_, rfl, rfl⟩
    rw [loadFault_eq, ← show s.regs.runState = .halted from hrun]
    rfl
  · rw [baseWrite_aligned value s hrun halign]
    exact ⟨rfl, rfl, handRead_queue_of .loader .loader _ _ _, fun r hr => (handRead_queue_of .loader r _ _ _).trans (if_neg hr)⟩

end

section
/-! PROOF. The parameters a load holds (10 R175): each as read in its range, else at the bound that it lies beyond. -/

namespace Sys2Proof.Machine

/-- The value held for a value read, in a range (10 R175). -/
def HeldAt (v lo hi x : Nat) : Prop := (lo ≤ v ∧ v ≤ hi) ∧ (lo ≤ x → x ≤ hi → v = x) ∧ (x < lo → v = lo) ∧ (hi < x → v = hi)

theorem clampNat_heldAt (lo hi x : Nat) (h : lo ≤ hi) : HeldAt (clampNat lo hi x) lo hi x := by
  unfold HeldAt clampNat
  omega

theorem min_heldAt (hi x : Nat) : HeldAt (min hi x) 0 hi x := by
  unfold HeldAt
  omega

theorem paramsOf_tolerance (ws : List Word) (k : Fin 8) : (paramsOf ws).tolerance.get k = toleranceOf ws k.val := by
  fin_cases k <;> rfl

theorem paramsOf_links (ws : List Word) (k : Fin 4) : (paramsOf ws).links.get k = linkParamsOf ws k.val := by
  fin_cases k <;> rfl

/-- Every linkage code but BIND's is REROUTE (05 R92). -/
theorem linkParamsOf_linkage (ws : List Word) (k : Nat) :
    (linkParamsOf ws k).linkage = .bind ↔ bits (cbWord ws (0x064 + 8 * k)) 11 8 = 1 := by
  simp only [linkParamsOf]
  split <;> simp_all

end Sys2Proof.Machine

open Sys2Proof Sys2Proof.Machine

/-- Settles O9: each parameter is a clamp of the value read, or the value. -/
theorem clampedParametersAreHeld : Obligations.ClampedParametersAreHeld := by
  intro ws p cb holds
  refine ⟨min_heldAt _ _, clampNat_heldAt _ _ _ (by decide), min_heldAt _ _, min_heldAt _ _, clampNat_heldAt _ _ _ (by decide),
    clampNat_heldAt _ _ _ (by decide), min_heldAt _ _, clampNat_heldAt _ _ _ (by decide), clampNat_heldAt _ _ _ (by decide),
    clampNat_heldAt _ _ _ (by decide), decide_eq_true_iff, clampNat_heldAt _ _ _ (by decide), clampNat_heldAt _ _ _ (by decide),
    fun k => ?_, fun k => ?_, rfl, rfl, rfl, rfl, rfl, rfl, rfl, rfl, rfl⟩
  · rw [show p.tolerance.get k = toleranceOf ws k.val from paramsOf_tolerance ws k]
    exact ⟨min_heldAt _ _, min_heldAt _ _⟩
  · rw [show p.links.get k = linkParamsOf ws k.val from paramsOf_links ws k]
    exact ⟨decide_eq_true_iff, linkParamsOf_linkage ws k.val, clampNat_heldAt _ _ _ (by decide), clampNat_heldAt _ _ _ (by decide),
      min_heldAt _ _⟩

end

section
/-! PROOF. The structural checks on the Control Block words (10 R174), and the load that they end. -/

namespace Sys2Proof.Machine

/-! ### A search of distinct elements -/

theorem pick_eq_some_iff {α : Type} (p : α → Bool) {before after : List α} {a : α} (hn : (before ++ a :: after).Nodup) :
    pick p (before ++ a :: after) = some a ↔ p a = true ∧ ∀ b ∈ before, p b = false := by
  refine ⟨fun h => ⟨(pick_eq_some p _ a h).1, ?_⟩, fun ⟨ha, hb⟩ => pick_first p before after a hb ha⟩
  induction before with
  | nil => simp
  | cons c before ih =>
    have hca : c ≠ a := by rintro rfl; simp at hn
    simp only [List.cons_append, pick] at h
    split at h
    · exact absurd (Option.some.inj h) hca
    · next hc =>
      have hrest := ih (List.nodup_cons.1 hn).2 h
      simpa [Bool.eq_false_iff.2 hc] using hrest

theorem pick_eq_none_iff {α : Type} (p : α → Bool) (l : List α) : pick p l = none ↔ ∀ b ∈ l, p b = false := by
  refine ⟨pick_eq_none p l, fun hb => Option.eq_none_iff_forall_ne_some.2 fun a h => ?_⟩
  obtain ⟨ha, before, after, rfl, -⟩ := pick_eq_some p l a h
  exact absurd ha (by simp [hb a])

/-! ### The checks in their order (10 R174) -/

/-- The addresses of the Control Block in the order they are tested. -/
def blockAddresses : List Nat := [0x000, 0x008, 0x010, 0x018, 0x020, 0x024]

/-- The first address that is no multiple of 8. -/
def misalignedAddress (ws : List Word) : Option Nat := pick (fun o => decide ((cbWord ws o).toNat % 8 ≠ 0)) blockAddresses

/-- A first test shows in the answer where no later one gives the same. -/
theorem ite_some_eq_iff {α : Type} {p : Prop} [Decidable p] {a : α} {rest : Option α} (h : rest ≠ some a) :
    (if p then some a else rest) = some a ↔ p := by
  split <;> simp_all

/-- The check that fails first decides. -/
theorem structuralFault_eq (ws : List Word) : structuralFault ws =
    if ¬ (1 ≤ (cbWord ws 0x004).toNat ∧ (cbWord ws 0x004).toNat ≤ 4096) then some (.circuitCount, 0x004)
    else if bits (cbWord ws 0x00C) 15 0 = 0 then some (.poolSize, 0x00C)
    else if (cbWord ws 0x01C).toNat = 0 then some (.slotCount, 0x01C)
    else if ¬ (1024 ≤ (cbWord ws 0x028).toNat ∧ (cbWord ws 0x028).toNat ≤ 1048576 ∧ (cbWord ws 0x028).toNat % 8 = 0) then
      some (.journalSize, 0x028)
    else (misalignedAddress ws).map (fun o => (.tableAlign, o)) := by
  unfold structuralFault
  refine if_congr (by omega) rfl (if_congr Iff.rfl rfl (if_congr Iff.rfl rfl (if_congr (by omega) rfl ?_)))
  change (match misalignedAddress ws with | some o => some (FaultCode.tableAlign, o) | none => none) = _
  cases misalignedAddress ws <;> rfl

theorem misalignedAddress_iff (ws : List Word) {before after : List Nat} {o : Nat} (h : blockAddresses = before ++ o :: after) :
    misalignedAddress ws = some o ↔ ¬ (cbWord ws o).toNat % 8 = 0 ∧ ∀ p ∈ before, (cbWord ws p).toNat % 8 = 0 := by
  have hn : blockAddresses.Nodup := by decide
  rw [misalignedAddress, h, pick_eq_some_iff _ (h ▸ hn)]
  simp

theorem misalignedAddress_none_iff (ws : List Word) :
    misalignedAddress ws = none ↔ ∀ o ∈ blockAddresses, (cbWord ws o).toNat % 8 = 0 := by
  rw [misalignedAddress, pick_eq_none_iff]
  simp

/-! ### The last Control Block word (10 R174) -/

/-- The last word of the Control Block returns, and the checks decide. -/
theorem controlBlockReadDone_eq (data : Word) (s : State) (hrun : s.run = .loading) (hs : s.readsWith .controlBlock)
    (hgot : s.loader.got.length = 33) :
    exec (.controlBlockReadDone data) s = .next (settle (controlBlockDone (s.loader.got ++ [data]) s.portFreed)) := by
  have hlast : endsControlBlock s = true := by simp [endsControlBlock, portTag_of_readsWith hs, hgot, controlBlockOffsets]
  show Host.Outcome.next (endOf (endsControlBlock s) data s) = _
  rw [endOf_read data hs hlast]
  simp [deliver, controlBlockRead, hrun, hgot, controlBlockOffsets]

theorem controlBlockDone_faults {ws : List Word} {code : FaultCode} {offset : Nat} (s : State)
    (h : structuralFault ws = some (code, offset)) :
    controlBlockDone ws s = loadFault code (addrOf s.regs.blockBase offset) s := by
  simp only [controlBlockDone, h]

theorem controlBlockDone_loads {ws : List Word} (s : State) (h : structuralFault ws = none) : controlBlockDone ws s = loadSteps ws s := by
  simp only [controlBlockDone, h]

end Sys2Proof.Machine

open Sys2Proof Sys2Proof.Machine

/-- Settles O7: the checks one after another, each where those before it pass, and the load fault that a failed one ends in. -/
theorem structuralChecksDecideTheLoad : Obligations.StructuralChecksDecideTheLoad := by
  refine ⟨fun ws => ?_, fun data s code offset hrun hs hgot hfault => ?_⟩
  · rw [structuralFault_eq]
    refine ⟨?_, fun hc => ?_, fun hc hp => ?_, fun hc hp hs => ?_, fun hc hp hs hj => ⟨fun before o after h => ?_, ?_⟩⟩
    · refine ite_some_eq_iff ?_
      split_ifs <;> simp
    · rw [if_neg (not_not.2 hc)]
      refine ite_some_eq_iff ?_
      split_ifs <;> simp
    · rw [if_neg (not_not.2 hc), if_neg hp]
      refine ite_some_eq_iff ?_
      split_ifs <;> simp
    · rw [if_neg (not_not.2 hc), if_neg hp, if_neg hs]
      exact ite_some_eq_iff (by simp)
    · rw [if_neg (not_not.2 hc), if_neg hp, if_neg hs, if_neg (not_not.2 hj), ← misalignedAddress_iff ws h]
      simp
    · rw [if_neg (not_not.2 hc), if_neg hp, if_neg hs, if_neg (not_not.2 hj), Option.map_eq_none_iff]
      exact misalignedAddress_none_iff ws
  · have hdone := controlBlockDone_faults s.portFreed hfault
    refine ⟨_, controlBlockReadDone_eq data s hrun hs hgot, ?_⟩
    rw [hdone]
    refine ⟨settle_run _, loadFault_hasEvent _ _ _, rfl, rfl, fun a => ?_⟩
    rw [settle_memory]
    rfl

end

section
/-! PROOF. The arbiter of the Memory Master (10 R178): the cyclic order, and the access issued. -/

namespace Sys2Proof.Machine

/-! ### The cyclic order -/

theorem turnOrder_perm (r : Requester) : (turnOrder r).Perm requesterOrder :=
  List.perm_append_comm.trans (by rw [List.take_append_drop])

/-- The requester served last is looked at last. -/
theorem turnOrder_getLast? (r : Requester) : (turnOrder r).getLast? = some r := by
  cases r with
  | link k => fin_cases k <;> rfl
  | _ => rfl

/-! ### The access issued -/

/-- The oldest access of a requester on the bus, the others in its queue. -/
def State.issued (s : State) (r : Requester) (x : Access) (rest : List Access) : State :=
  { s with master := { (setQueue r rest s).master with port := some (r, x), served := r, timer := some 1 } }

theorem issue_blocked (s : State) (h : s.held = true ∨ s.run = .faulted ∨ s.master.port.isSome = true) : issue s = s := if_pos h

section Free

variable (s : State) (hheld : s.held = false) (hrun : s.run ≠ .faulted) (hport : s.master.port = none)

include hheld hrun hport

theorem issue_rests (h : pick (fun r => !(s.queue r).isEmpty) (turnOrder s.master.served) = none) : issue s = s := by
  simp [issue, hheld, hrun, hport, h]

theorem issue_issues {r : Requester} {x : Access} {rest : List Access}
    (h : pick (fun r => !(s.queue r).isEmpty) (turnOrder s.master.served) = some r) (hq : s.queue r = x :: rest) :
    issue s = s.issued r x rest := by
  simp [issue, hheld, hrun, hport, h, hq, State.issued, setQueue]

end Free

theorem issued_queue (s : State) (r q : Requester) (x : Access) (rest : List Access) :
    (s.issued r x rest).queue q = if q = r then rest else s.queue q := setQueue_queue r q rest s

end Sys2Proof.Machine

open Sys2Proof Sys2Proof.Machine

/-- Settles O13: the first requester in turn with an access waiting is the one a search of the cyclic order finds. -/
theorem masterServesRequestersInTurn : Obligations.MasterServesRequestersInTurn := by
  intro s
  refine ⟨issue_blocked s, fun hheld hrun hport => ⟨fun hempty => ?_, fun before r after x rest horder hbefore hqueue => ?_⟩,
    fun r => ⟨turnOrder_perm r, turnOrder_getLast? r⟩⟩
  · refine issue_rests s hheld hrun hport (Option.eq_none_iff_forall_ne_some.2 fun r hr => ?_)
    have hwaits := (pick_eq_some _ _ r hr).1
    simp [hempty r] at hwaits
  · have hfirst : pick (fun r => !(s.queue r).isEmpty) (turnOrder s.master.served) = some r := by
      rw [horder]
      exact pick_first _ before after r (fun q hq => by simp [hbefore q hq]) (by simp [hqueue])
    rw [issue_issues s hheld hrun hport hfirst hqueue]
    exact ⟨rfl, rfl, rfl, (issued_queue s r r x rest).trans (if_pos rfl),
      fun q hq => (issued_queue s r q x rest).trans (if_neg hq), rfl⟩

end

section
/-! PROOF. The response of the access on the bus (10 R178): the word it writes, the reads that go on (01 R5 R9, 02 R32 R45, 09 R164, 10
R174), and the end of a stop (10 R177). -/

namespace Sys2Proof.Machine

/-! ### The end of a stop (10 R177) -/

theorem mem_requesterOrder (r : Requester) : r ∈ requesterOrder :=
  (turnOrder_perm r).mem_iff.1 (List.mem_of_getLast? (turnOrder_getLast? r))

/-- The Memory Master holds no access: neither on the bus nor in a queue. -/
theorem masterBusy_eq_false_iff (s : State) : s.masterBusy = false ↔ s.master.port = none ∧ ∀ q, s.queue q = [] := by
  simp [State.masterBusy, mem_requesterOrder]

theorem offers_none_iff (j : Journal) : (∀ src, j.offer src = none) ↔ j.cmpOffer = none ∧ j.custOffer = none ∧ j.campOffer = none := by
  refine ⟨fun h => ⟨h .comparator, h .custody, h .campaign⟩, ?_⟩
  rintro ⟨hcmp, hcust, hcamp⟩ (_ | _ | _)
  · exact hcmp
  · exact hcust
  · exact hcamp

theorem stopComplete_iff (s : State) : stopComplete s = true ↔
    s.run = .stopping ∧ s.cmp.phase = .idle ∧ s.journal.phase = .idle ∧ (∀ src, s.journal.offer src = none) ∧
    s.custody.action = none ∧ s.reader.stage ≠ .answered ∧ s.master.port = none ∧ (∀ q, s.queue q = []) ∧
    s.loader.stopHanded = false := by
  simp only [stopComplete, Bool.and_eq_true, decide_eq_true_eq, Bool.not_eq_true', masterBusy_eq_false_iff, offers_none_iff,
    Option.isNone_iff_eq_none, and_assoc]

/-- The response of the HALTED write in STOPPING (log entry 21). -/
theorem stoppingEnd_eq (data : Word) (s : State) (r : Requester) (x : Access) (hport : s.master.port = some (r, x))
    (htag : x.tag = .haltedWrite) (hrun : s.run = .stopping) : exec (.stoppingEnd data) s =
      .next (settle (setRun .halted (modLoader (fun l => { l with stopHanded := false }) (endAccess x s)))) := by
  have hlast : decide (s.portTag = some .haltedWrite) = true := by simp [State.portTag, hport, htag]
  show Host.Outcome.next (endOf (decide (s.portTag = some .haltedWrite)) data s) = _
  rw [endOf_response _ data s r x hport hlast, htag]
  exact congrArg (fun u => Host.Outcome.next (settle u)) (if_pos hrun)

/-! ### A read that goes on -/

theorem memoryAccessDone_eq (data : Word) (s : State) (r : Requester) (x : Access) (hport : s.master.port = some (r, x)) :
    exec (.memoryAccessDone data) s = .next (settle (deliver x.tag data (endAccess x s))) :=
  congrArg Host.Outcome.next (endOf_response true data s r x hport rfl)

/-- A word written is in memory after the whole event. -/
theorem response_written (data : Word) (s : State) (x : Access) (w : Word) (hw : x.write = some w) :
    readWord (settle (deliver x.tag data (endAccess x s))).memory x.addr = w := by
  rw [settle_memory, deliver_memory]
  simp only [endAccess, hw]
  exact readWord_writeWord _ _ _

/-- The response of a read hands over the read of an address for the same operation, and the state is otherwise `t`. -/
def GoesOn (data : Word) (s : State) (q : Requester) (addr : Word) (tag : Tag) (t : State) : Prop :=
  ∃ u, exec (.memoryAccessDone data) s = .next (settle u) ∧ u = { t with master := u.master } ∧ u.master.port = none ∧
    u.queue q = s.queue q ++ [⟨addr, none, tag⟩] ∧ ∀ p, p ≠ q → u.queue p = s.queue p

theorem goesOn_of_deliver {data : Word} {s t : State} {q : Requester} {addr : Word} {tag : Tag} (hs : s.readsWith tag)
    (hmaster : t.master = s.portFreed.master) (h : deliver tag data s.portFreed = handRead q addr tag t) :
    GoesOn data s q addr tag t := by
  have hqueue : ∀ p, t.queue p = s.queue p := fun p => (congrArg (fun m : Master => m.queues.get p.index) hmaster).trans
    (portFreed_queue s p)
  have hhanded : ∀ p, (handRead q addr tag t).queue p = if p = q then s.queue q ++ [⟨addr, none, tag⟩] else s.queue p := fun p => by
    rw [handRead_queue_of, hqueue, hqueue]
  refine ⟨handRead q addr tag t, ?_, rfl, congrArg Master.port hmaster, (hhanded q).trans (if_pos rfl),
    fun p hp => (hhanded p).trans (if_neg hp)⟩
  rw [← h]
  exact congrArg Host.Outcome.next (endOf_read data hs rfl)

theorem controlBlockRead_more (data : Word) (s : State) (hrun : s.run = .loading)
    (h : (s.loader.got ++ [data]).length < controlBlockOffsets.length) : controlBlockRead data s =
      readControlBlock (s.loader.got ++ [data]).length (modLoader (fun l => { l with got := s.loader.got ++ [data] }) s) :=
  (if_neg (not_not.2 hrun)).trans (if_pos h)

theorem loadWindowRead_more (data : Word) (s : State) (hrun : s.run = .loading)
    (h : (s.loader.got ++ [data]).length < loadWindowOffsets.length) : loadWindowRead data s =
      handRead .window (windowAddr s s.loader.index (loadWindowOffsets.getD (s.loader.got ++ [data]).length 0)) .loadWindow
        (modLoader (fun l => { l with got := s.loader.got ++ [data] }) s) :=
  (if_neg (not_not.2 hrun)).trans (if_pos h)

section Reads

variable (data : Word) (s : State)

/-- The Control Block's words lie one after another (11 R182). -/
theorem controlBlock_goesOn (hs : s.readsWith .controlBlock) (hrun : s.run = .loading) (hn : s.loader.got.length + 1 < 34) :
    GoesOn data s .loader (addrOf s.regs.blockBase (4 * (s.loader.got.length + 1))) .controlBlock
      { s.portFreed with loader := { s.loader with got := s.loader.got ++ [data] } } := by
  refine goesOn_of_deliver hs rfl ?_
  have hoffset : controlBlockOffsets.getD (s.loader.got.length + 1) 0 = 4 * (s.loader.got.length + 1) := by
    simp [controlBlockOffsets, List.getD_eq_getElem?_getD, List.getElem?_range hn]
  have hlength : (s.loader.got ++ [data]).length < controlBlockOffsets.length := by simpa [controlBlockOffsets] using hn
  refine (controlBlockRead_more data s.portFreed hrun hlength).trans ?_
  rw [readControlBlock, List.length_append, List.length_singleton, portFreed_loader, hoffset]
  rfl

/-- The twenty host-written words of a window entry, then the phase word and its time (02 R45). -/
theorem loadWindowOffsets_getD (n : Nat) (hn : n < 22) :
    loadWindowOffsets.getD n 0 = if n < 20 then 4 * n else 0x58 + 4 * (n - 20) := by
  have hall : ∀ n : Fin 22, loadWindowOffsets.getD n.val 0 = if n.val < 20 then 4 * n.val else 0x58 + 4 * (n.val - 20) := by decide
  exact hall ⟨n, hn⟩

theorem loadWindow_goesOn (hs : s.readsWith .loadWindow) (hrun : s.run = .loading) (hn : s.loader.got.length + 1 < 22) :
    GoesOn data s .window (windowAddr s s.loader.index (loadWindowOffsets.getD (s.loader.got.length + 1) 0)) .loadWindow
      { s.portFreed with loader := { s.loader with got := s.loader.got ++ [data] } } := by
  refine goesOn_of_deliver hs rfl ?_
  have hlength : (s.loader.got ++ [data]).length < loadWindowOffsets.length := by
    simpa [loadWindowOffsets, windowOffsets] using hn
  refine (loadWindowRead_more data s.portFreed hrun hlength).trans ?_
  rw [List.length_append, List.length_singleton]
  rfl

theorem record_goesOn (a : Action) (got : List Word) (hs : s.readsWith .record) (ha : s.custody.action = some a)
    (hp : a.phase = .reading got) (hn : got.length + 1 < 6) :
    GoesOn data s .custody (recordAddr s a.req.circuit (recordOffsets.getD (got.length + 1) 0)) .record
      { s.portFreed with custody := { s.custody with action := some { a with phase := .reading (got ++ [data]) } } } := by
  refine goesOn_of_deliver hs rfl ?_
  have hnext : recordOffsets[(got ++ [data]).length]? = some (recordOffsets.getD (got.length + 1) 0) := by
    have hlt : got.length + 1 < recordOffsets.length := hn
    rw [List.length_append, List.length_singleton, List.getD_eq_getElem _ _ hlt]
    exact List.getElem?_eq_getElem hlt
  simp only [deliver, recordRead, portFreed_custody, ha, hp, hnext, setPhase]
  rfl

theorem route_goesOn (a : Action) (words : RecordWords) (rr next : RouteRead) (addr : Word) (hs : s.readsWith .route)
    (ha : s.custody.action = some a) (hp : a.phase = .routing words rr) (hd : routeAdvance s a.req.circuit rr data = .read next addr) :
    GoesOn data s .custody addr .route
      { s.portFreed with custody := { s.custody with action := some { a with phase := .routing words next } } } := by
  refine goesOn_of_deliver hs rfl ?_
  have hfreed : routeAdvance s.portFreed a.req.circuit rr data = .read next addr := hd
  simp only [deliver, routeRead, portFreed_custody, ha, hp, hfreed, setPhase]
  rfl

theorem refresh_goesOn (r : Refresh) (o : Nat) (hs : s.readsWith .refresh) (hr : s.sched.refresh = some r)
    (ho : (refreshOffsets r.kind)[r.got.length + 1]? = some o) :
    GoesOn data s .window (windowAddr s r.window.val o) .refresh
      { s.portFreed with sched := { s.sched with refresh := some { r with got := r.got ++ [data] } } } := by
  refine goesOn_of_deliver hs rfl ?_
  have hnext : (refreshOffsets r.kind)[(r.got ++ [data]).length]? = some o := by rwa [List.length_append, List.length_singleton]
  simp only [deliver, refreshRead, portFreed_sched, hr, hnext]
  rfl

/-- The argument words of VERIFY_SPANS lie one after another (09 R164). -/
theorem spansOffsets_getElem? (n : Nat) (hn : n < 5) : (argOffsets .verifySpans)[n]? = some (4 * (n + 1)) := by
  have hall : ∀ n : Fin 5, (argOffsets .verifySpans)[n.val]? = some (4 * (n.val + 1)) := by decide
  exact hall ⟨n, hn⟩

theorem argument_goesOn (control : Word) (got : List Word) (o : Nat) (hs : s.readsWith .reqArg)
    (hstage : s.reader.stage = .args control got) (ho : (argOffsets (requestKind control))[got.length + 1]? = some o) :
    GoesOn data s .request (slotAddr s s.reader.nextIndex o) .reqArg
      { s.portFreed with reader := { s.reader with stage := .args control (got ++ [data]) } } := by
  refine goesOn_of_deliver hs rfl ?_
  have hnext : (argOffsets (requestKind control))[(got ++ [data]).length]? = some o := by
    rwa [List.length_append, List.length_singleton]
  simp only [deliver, argRead, portFreed_reader, hstage, nextArg, hnext]
  rfl

end Reads

end Sys2Proof.Machine

open Sys2Proof Sys2Proof.Machine

/-- Settles O11: the word on the bus, the write that ends a stop, the order of service, and the six kinds of read that go on. -/
theorem responseChangesTheWrittenWordOnly : Obligations.ResponseChangesTheWrittenWordOnly := by
  refine ⟨fun data s r x hport => ⟨?_, fun htag hrun => ?_⟩, fun s => ⟨fun hready => ?_, fun hready => ?_⟩, fun s => rfl,
    fun data s => ⟨controlBlock_goesOn data s, fun hs hrun hn => ?_, fun a got hs ha hp hn => ?_,
      fun a words rr next addr => route_goesOn data s a words rr next addr,
      fun r hs hr => ⟨fun hkind hn => ?_, fun hkind hn => ?_⟩, fun control got hs hstage hkind hn => ?_⟩⟩
  · exact ⟨endAccess x s, memoryAccessDone_eq data s r x hport, rfl, rfl, response_outside data s r x hport,
      response_written data s x⟩
  · have houtside := response_outside data s r x hport
    refine ⟨_, stoppingEnd_eq data s r x hport htag hrun, settle_run _, rfl, fun a ha => ?_⟩
    rw [← houtside a ha, settle_memory, settle_memory, deliver_memory]
    rfl
  · exact serveStop_waits s (Bool.eq_false_iff.2 fun h => hready ((stopComplete_iff s).1 h))
  · have hcomplete := (stopComplete_iff s).2 hready
    obtain ⟨-, -, -, -, -, -, hport, hqueues, -⟩ := hready
    rw [serveStop_hands s hcomplete]
    have hqueue : ∀ q, (runStateWrite .halted .haltedWrite (modLoader (fun l => { l with stopHanded := true }) s)).queue q =
        if q = .loader then [⟨addrOf s.params.controlBlock 0x100, some 0#32, .haltedWrite⟩] else [] := fun q => by
      refine (handWrite_queue_of .loader q _ _ _ _).trans ?_
      simp [hqueues, RunState.code, field_zero]
    exact ⟨rfl, (hqueue .loader).trans (if_pos rfl), fun q hq => (hqueue q).trans (if_neg hq), hport⟩
  · have h := loadWindow_goesOn data s hs hrun hn
    rwa [loadWindowOffsets_getD _ hn] at h
  · exact record_goesOn data s a got hs ha hp hn
  · refine refresh_goesOn data s r _ hs hr ?_
    simp [hkind, refreshOffsets, windowOffsets, List.getElem?_range hn]
  · refine refresh_goesOn data s r _ hs hr ?_
    rw [hkind, hn]
    rfl
  · refine argument_goesOn data s control got _ hs hstage ?_
    rw [hkind]
    exact spansOffsets_getElem? _ hn

end

section
/-! PROOF. A load whose checks pass (10 R174 R176): the clearing and journal steps, the links started afresh (05 R106), and the beginning of
the window step, each with the accesses it hands over. -/

namespace Sys2Proof.Machine

/-! ### The links started afresh (05 R106) -/

/-- A link as the link step starts it. -/
def freshLink (p : LinkParams) (l : Link) : Link :=
  let up := p.enabled && l.signal
  { l with
    started := true, txQueue := [], state := if up then .restoring else .down, holdOff := if up then some (p.holdOff * 10) else none }

def State.startedLink (s : State) (k : Fin 4) : Link := freshLink (s.linkParams k) (s.link k)

/-- The state field and the counters of a link just started. -/
def State.startAccesses (s : State) (k : Fin 4) : List Access := linkAccesses (modLink k (fun _ => s.startedLink k) s) k

theorem linkAccesses_congr {s t : State} {k : Fin 4} (hp : t.params = s.params) (hl : t.link k = s.link k) :
    linkAccesses t k = linkAccesses s k := by
  simp only [linkAccesses, statusAccess, hp, hl]

/-- From `s` to `t` the links of a list are started, each with its words handed over, and nothing else changes. -/
structure LinksStarted (s t : State) (l : List (Fin 4)) : Prop where
  frame : t = { s with links := t.links, master := t.master }
  started : ∀ k ∈ l, t.link k = s.startedLink k
  others : ∀ k, k ∉ l → t.link k = s.link k
  queue : ∀ q, t.queue q = s.queue q ++ l.flatMap (fun k => handedTo (.link k) (s.startAccesses k) q)

theorem LinksStarted.refl (s : State) : LinksStarted s s [] where
  frame := rfl
  started _ hk := absurd hk List.not_mem_nil
  others _ _ := rfl
  queue _ := (List.append_nil _).symm

theorem LinksStarted.params {s t : State} {l : List (Fin 4)} (h : LinksStarted s t l) : t.params = s.params := by rw [h.frame]

/-- One more link started. -/
theorem LinksStarted.start {s t : State} {l : List (Fin 4)} (h : LinksStarted s t l) (k : Fin 4) (hk : k ∉ l) :
    LinksStarted s (startLink t k) (l ++ [k]) := by
  have hparams := h.params
  have hstarted : t.startedLink k = s.startedLink k :=
    congrArg₂ freshLink (congrArg (fun p : Params => p.links.get k) hparams) (h.others k hk)
  have hhanded : HandsOver _ (startLink t k) _ := linkStatusWrite_handsOver (s := modLink k (fun _ => t.startedLink k) t) rfl k
  have hlink : ∀ j, (startLink t k).link j = if j = k then t.startedLink k else t.link j := fun j =>
    (congrArg (·.link j) hhanded.frame).trans (vput_get _ _ _ _)
  refine ⟨?_, fun j hj => ?_, fun j hj => ?_, fun q => ?_⟩
  · rw [hhanded.frame, h.frame]
    rfl
  · rw [hlink]
    split
    · next hjk => rw [hjk, hstarted]
    · next hjk => exact h.started j ((List.mem_append.1 hj).resolve_right (by simpa using hjk))
  · rw [List.mem_append, not_or, List.mem_singleton] at hj
    rw [hlink, if_neg hj.2, h.others j hj.1]
  · have haccesses : linkAccesses (modLink k (fun _ => t.startedLink k) t) k = s.startAccesses k :=
      linkAccesses_congr hparams (by simp [hstarted])
    rw [hhanded.queue, modLink_queue, h.queue, haccesses, List.append_assoc, List.flatMap_append, List.flatMap_singleton]

theorem linkStep_starts (s : State) : LinksStarted s (linkStep s) (List.finRange 4) :=
  ((((LinksStarted.refl s).start 0 (by decide)).start 1 (by decide)).start 2 (by decide)).start 3 (by decide)

/-! ### The clearing and journal steps (10 R176, 08 R154) -/

/-- The state with the parameters of the Control Block words held. -/
def State.paramsHeld (ws : List Word) (s : State) : State :=
  { s with
    params := { paramsOf ws with controlBlock := s.regs.blockBase }
    loader := { s.loader with epoch := cbWord ws 0x084, got := [] } }

/-- The operations from before a load are given up, but for phase-word writes (02 R44). -/
def beforeLoad (g : Tag) : Bool := decide (g ≠ .phaseWord)

/-- The state with every block cleared, before the clearing step's words are handed over. -/
def State.cleared (s : State) : State :=
  { orphan beforeLoad s with
    probes := clearProbes s.probes, ctrl := {}, cmp := {}, fifo := [], links := vmap (fun l => { l with counters := {} }) s.links
    custody := {}, reader := { s.reader with pollTimer := none } }

theorem clearingStep_eq (s : State) : clearingStep s = statusWrite .probe 0x10C 0 (slotWordsWrite s.cleared) := rfl

theorem HandsOver.setJournal {s t : State} {handed : Requester → List Access} (h : HandsOver s t handed) (j : Journal) :
    HandsOver { s with journal := j } { t with journal := j } handed where
  frame := by rw [h.frame]
  queue := h.queue

/-- The words of the eight slots, of the occupancy and of the write offset, all 0. -/
def State.clearingAccesses (s : State) : Requester → List Access
  | .campaign => (List.finRange 8).map (fun i => statusAccess s (0x170 + 4 * i.val) 0)
  | .probe => [statusAccess s 0x10C 0]
  | .journal => [statusAccess s 0x104 0]
  | _ => []

/-- The journal of a session that begins (08 R154). -/
def State.freshJournal (s : State) : Journal := { base := s.params.journalBase, size := s.params.journalSize }

theorem clearingStep_handsOver (s : State) : HandsOver s.cleared (clearingStep s)
    (fun q => (List.finRange 8).flatMap (fun i => handedTo .campaign [slotAccess s.cleared i] q) ++
      handedTo .probe [statusAccess s.cleared 0x10C 0] q) := by
  have hslots := slotWordsWrite_handsOver (s := s.cleared) (t := s.cleared) rfl
  exact hslots.trans (statusWrite_handsOver hslots.frame .probe 0x10C 0)

theorem journalStep_eq (s : State) : journalStep s = statusWrite .journal 0x104 0 { s with journal := s.freshJournal } := rfl

theorem clearing_handsOver (s : State) :
    HandsOver { s.cleared with journal := s.freshJournal } (journalStep (clearingStep s)) s.clearingAccesses := by
  have hclear := clearingStep_handsOver s
  have hparams : (clearingStep s).params = s.params := congrArg (·.params) hclear.frame
  have hfresh : (clearingStep s).freshJournal = s.freshJournal := by simp only [State.freshJournal, hparams]
  have hset := hclear.setJournal s.freshJournal
  rw [journalStep_eq, hfresh]
  have hall := hset.trans (statusWrite_handsOver hset.frame .journal 0x104 0)
  refine ⟨hall.frame, fun q => (hall.queue q).trans (congrArg _ ?_)⟩
  have hslot : ∀ i, slotAccess s.cleared i = statusAccess s (0x170 + 4 * i.val) 0 := fun i => by
    have hfree : s.cleared.campaign i = {} := replicate_get _ _
    rw [slotAccess, hfree]
    rfl
  simp only [hslot, flatMap_handedTo]
  cases q <;> rfl

/-! ### The window step begins (02 R45, 01 R22) -/

/-- The part as the window step begins, before its first read is handed over: with no window, the custody step begins. -/
def State.windowsBegun (s : State) : State :=
  if s.params.windowCount = 0 then
    { s with
      sched := {}, loader := { s.loader with step := .custody, index := 0, got := [] }
      custody := { s.custody with action := some { req := .load 0, phase := .reading [] } } }
  else { s with sched := {}, loader := { s.loader with step := .windows, index := 0, got := [] } }

def State.firstRead (s : State) : Requester → List Access :=
  if s.params.windowCount = 0 then handedTo .custody [⟨s.params.circuitTable, none, .record⟩]
  else handedTo .window [⟨s.params.windowList, none, .loadWindow⟩]

theorem beginWindowStep_handsOver (s : State) : HandsOver s.windowsBegun (beginWindowStep s) s.firstRead := by
  have hempty : beginWindowStep s =
      goOnLoadWindows { s with sched := {}, loader := { s.loader with step := .windows, index := 0 } } := rfl
  rw [hempty, State.windowsBegun, State.firstRead]
  split
  · next h =>
    rw [goOnLoadWindows_last _ (by rw [h]), ← addrOf_zero s.params.circuitTable]
    exact hand_handsOver .custody _ _
  · next h =>
    rw [goOnLoadWindows_next _ (Nat.pos_of_ne_zero h), ← addrOf_zero s.params.windowList]
    exact hand_handsOver .window _ _

theorem windowsBegun_frame (s : State) :
    s.windowsBegun = { s with sched := {}, loader := s.windowsBegun.loader, custody := s.windowsBegun.custody } := by
  unfold State.windowsBegun
  split <;> rfl

theorem windowsBegun_queue (s : State) (q : Requester) : s.windowsBegun.queue q = s.queue q := by
  unfold State.windowsBegun
  split <;> rfl

theorem windowsBegun_custody (s : State) : s.windowsBegun.custody = { s.custody with
    action := if s.params.windowCount = 0 then some { req := .load 0, phase := .reading [] } else s.custody.action } := by
  unfold State.windowsBegun
  split <;> rfl

theorem windowsBegun_loader (s : State) : s.windowsBegun.loader =
    { s.loader with step := if s.params.windowCount = 0 then .custody else .windows, index := 0, got := [] } := by
  unfold State.windowsBegun
  split <;> rfl

/-! ### The whole load after the Control Block step (10 R176) -/

section Load

variable (ws : List Word) (s : State)

/-- The state with the parameters held and the run state field handed over. -/
def State.loadStarted : State := runStateWrite .loading .plain (s.paramsHeld ws)

/-- The part before the clearing step's words, before the link step and before the window step. -/
def State.beforeLinks : State := journalStep (clearingStep (s.loadStarted ws))

def State.beforeWindows : State := linkStep (s.beforeLinks ws)

theorem loadSteps_eq : loadSteps ws s = beginWindowStep (s.beforeWindows ws) := rfl

/-- Steps one after another that reach the Memory Master, the links, and what the window step begins with. -/
theorem load_frame_trans {a b c : State} (hb : b = { a with master := b.master })
    (hc : c = { b with links := c.links, master := c.master }) : c = { a with links := c.links, master := c.master } := by
  rw [hc, hb]

theorem window_frame_trans {a c d u : State} (hc : c = { a with links := c.links, master := c.master })
    (hd : d = { c with sched := {}, loader := d.loader, custody := d.custody }) (hu : u = { d with master := u.master }) :
    u = { a with links := c.links, sched := {}, loader := d.loader, custody := d.custody, master := u.master } := by
  rw [hu, hd, hc]

/-- The state with the parameters held and every block cleared, with what the Memory Master held before the load. -/
def State.blocksCleared : State := { (s.loadStarted ws).cleared with journal := (s.loadStarted ws).freshJournal }

theorem beforeLinks_handsOver : HandsOver (s.blocksCleared ws) (s.beforeLinks ws) (s.loadStarted ws).clearingAccesses :=
  clearing_handsOver (s.loadStarted ws)

theorem beforeWindows_starts : LinksStarted (s.beforeLinks ws) (s.beforeWindows ws) (List.finRange 4) := linkStep_starts _

theorem beforeWindows_frame : s.beforeWindows ws =
    { s.blocksCleared ws with links := (s.beforeWindows ws).links, master := (s.beforeWindows ws).master } :=
  load_frame_trans (beforeLinks_handsOver ws s).frame (beforeWindows_starts ws s).frame

theorem loadSteps_frame : loadSteps ws s = { s.blocksCleared ws with
    links := (s.beforeWindows ws).links, sched := {}
    loader := (s.beforeWindows ws).windowsBegun.loader, custody := (s.beforeWindows ws).windowsBegun.custody
    master := (loadSteps ws s).master } := by
  rw [loadSteps_eq]
  exact window_frame_trans (beforeWindows_frame ws s) (windowsBegun_frame _) (beginWindowStep_handsOver _).frame

theorem beforeWindows_params : (s.beforeWindows ws).params = { paramsOf ws with controlBlock := s.regs.blockBase } :=
  congrArg (·.params) (beforeWindows_frame ws s)

theorem beforeWindows_custody : (s.beforeWindows ws).custody = {} := congrArg (·.custody) (beforeWindows_frame ws s)

theorem beforeWindows_loader : (s.beforeWindows ws).loader = { s.loader with epoch := cbWord ws 0x084, got := [] } :=
  congrArg (·.loader) (beforeWindows_frame ws s)

/-- Each link is started afresh with its counters at 0 (05 R106). -/
theorem beforeWindows_link (k : Fin 4) : (s.beforeWindows ws).link k =
    freshLink ((paramsOf ws).links.get k) { s.link k with counters := {} } := by
  have hclear := (beforeLinks_handsOver ws s).frame
  have hparams : (s.beforeLinks ws).linkParams k = (paramsOf ws).links.get k := congrArg (·.linkParams k) hclear
  have hlink : (s.beforeLinks ws).link k = { s.link k with counters := {} } := (congrArg (·.link k) hclear).trans (vmap_get _ _ _)
  exact ((beforeWindows_starts ws s).started k (List.mem_finRange k)).trans (congrArg₂ freshLink hparams hlink)

theorem loadSteps_custody : (loadSteps ws s).custody =
    { action := if (paramsOf ws).windowCount = 0 then some { req := .load 0, phase := .reading [] } else none } := by
  rw [loadSteps_frame, windowsBegun_custody, beforeWindows_custody, beforeWindows_params]

theorem loadSteps_loader : (loadSteps ws s).loader =
    { s.loader with
      epoch := cbWord ws 0x084, step := if (paramsOf ws).windowCount = 0 then .custody else .windows, index := 0, got := [] } := by
  rw [loadSteps_frame, windowsBegun_loader, beforeWindows_loader, beforeWindows_params]

theorem loadSteps_link_eq (k : Fin 4) : (loadSteps ws s).link k = (s.beforeWindows ws).link k := by
  have hlinks : (loadSteps ws s).links = (s.beforeWindows ws).links := by rw [loadSteps_frame]
  exact congrArg (fun v : Vector Link 4 => v.get k) hlinks

/-! ### What the load hands over (10 R176, 11 R182) -/

/-- A word of the Status Area in the Control Block that is being loaded. -/
def State.blockAccess (offset : Nat) (w : Word) : Access := ⟨addrOf s.regs.blockBase offset, some w, .plain⟩

/-- The accesses from before the load, of which phase-word writes alone keep their effect (02 R44). -/
def State.handedBefore (q : Requester) : List Access := (s.queue q).map (orphanAccess beforeLoad)

theorem blocksCleared_queue (q : Requester) :
    (s.blocksCleared ws).queue q = s.handedBefore q ++ handedTo .loader [s.blockAccess 0x100 1] q := by
  have hqueue := (hand_handsOver .loader (s.blockAccess 0x100 1) (s.paramsHeld ws)).queue q
  have hcleared : (s.blocksCleared ws).queue q = ((s.loadStarted ws).queue q).map (orphanAccess beforeLoad) :=
    orphan_queue_map _ _ _
  rw [hcleared, show (s.loadStarted ws).queue q = _ from hqueue, List.map_append]
  refine congrArg _ ?_
  unfold handedTo
  split <;> rfl

/-- The six words of a link just started. -/
def State.linkStarts (k : Fin 4) : List Access :=
  [s.blockAccess (0x110 + 24 * k.val) (field ((loadSteps ws s).link k).state.code 2 0), s.blockAccess (0x114 + 24 * k.val) 0,
    s.blockAccess (0x118 + 24 * k.val) 0, s.blockAccess (0x11C + 24 * k.val) 0, s.blockAccess (0x120 + 24 * k.val) 0,
    s.blockAccess (0x124 + 24 * k.val) 0]

theorem startAccesses_eq (k : Fin 4) : (s.beforeLinks ws).startAccesses k = s.linkStarts ws k := by
  have hstarts := beforeWindows_starts ws s
  have hparams : (s.beforeWindows ws).params = (s.beforeLinks ws).params := hstarts.params
  have hlink : (s.beforeWindows ws).link k = (s.beforeLinks ws).startedLink k := hstarts.started k (List.mem_finRange k)
  have hcounters : ((loadSteps ws s).link k).counters = {} := by rw [loadSteps_link_eq, beforeWindows_link]; rfl
  have haccesses : linkAccesses (modLink k (fun _ => (s.beforeLinks ws).startedLink k) (s.beforeLinks ws)) k =
      linkAccesses (s.beforeWindows ws) k :=
    linkAccesses_congr ((modLink_params _ _ _).trans hparams.symm) ((modLink_link_same _ _ _).trans hlink.symm)
  rw [State.startAccesses, haccesses]
  simp only [linkAccesses, hcounters, statusAccess, beforeWindows_params, ← loadSteps_link_eq]
  rfl

theorem loadSteps_queue_steps (q : Requester) : (loadSteps ws s).queue q =
    s.handedBefore q ++ handedTo .loader [s.blockAccess 0x100 1] q ++ (s.loadStarted ws).clearingAccesses q ++
      (List.finRange 4).flatMap (fun k => handedTo (.link k) (s.linkStarts ws k) q) ++ (s.beforeWindows ws).firstRead q := by
  rw [loadSteps_eq, (beginWindowStep_handsOver _).queue]
  refine congrArg (· ++ _) ?_
  rw [windowsBegun_queue, (beforeWindows_starts ws s).queue, (beforeLinks_handsOver ws s).queue, blocksCleared_queue]
  simp only [startAccesses_eq]

/-- The first read of the step that begins. -/
theorem beforeWindows_firstRead (q : Requester) : (s.beforeWindows ws).firstRead q =
    if (paramsOf ws).windowCount = 0 then handedTo .custody [⟨cbWord ws 0x000, none, .record⟩] q
    else handedTo .window [⟨cbWord ws 0x010, none, .loadWindow⟩] q := by
  rw [State.firstRead, beforeWindows_params]
  split <;> rfl

/-- The accesses that a load hands over for each requester, in their order. -/
def State.loadAccesses : Requester → List Access
  | .loader => [s.blockAccess 0x100 1]
  | .custody => if (paramsOf ws).windowCount = 0 then [⟨cbWord ws 0x000, none, .record⟩] else []
  | .window => if (paramsOf ws).windowCount = 0 then [] else [⟨cbWord ws 0x010, none, .loadWindow⟩]
  | .campaign => (List.finRange 8).map (fun i => s.blockAccess (0x170 + 4 * i.val) 0)
  | .probe => [s.blockAccess 0x10C 0]
  | .link k => s.linkStarts ws k
  | .journal => [s.blockAccess 0x104 0]
  | .request => []

theorem loadSteps_queue (q : Requester) : (loadSteps ws s).queue q = s.handedBefore q ++ s.loadAccesses ws q := by
  rw [loadSteps_queue_steps, beforeWindows_firstRead]
  cases q with
  | link k =>
    rw [flatMap_handedTo_link]
    simp [handedTo, State.clearingAccesses, State.loadAccesses]
  | _ =>
    rw [flatMap_handedTo_no_link _ _ (fun _ => Requester.noConfusion), List.append_nil, List.append_assoc, List.append_assoc]
    refine congrArg _ ?_
    simp only [State.loadAccesses]
    split <;> rfl

end Load

end Sys2Proof.Machine

open Sys2Proof Sys2Proof.Machine

/-- Settles O8: the blocks cleared, the links started and the window step begun, with the accesses of each step in turn. -/
theorem loadClearsAndStartsTheBlocks : Obligations.LoadClearsAndStartsTheBlocks := by
  intro data s ws hrun hs hgot hpass
  have hframe := loadSteps_frame ws s.portFreed
  have hcustody := loadSteps_custody ws s.portFreed
  have hloader := loadSteps_loader ws s.portFreed
  have hlink := fun k => (loadSteps_link_eq ws s.portFreed k).trans (beforeWindows_link ws s.portFreed k)
  have hregs : (loadSteps ws s.portFreed).regs = s.regs := loadSteps_regs ws s.portFreed
  have hhost := (settle_hostSide (loadSteps ws s.portFreed)).trans (loadSteps_host ws s.portFreed)
  have hqueue := loadSteps_queue ws s.portFreed
  refine ⟨loadSteps ws s.portFreed, ?_, ?_, hhost, fun a => ?_, hregs, by rw [hframe]; rfl, by rw [hframe]; rfl, by rw [hframe]; rfl,
    by rw [hframe]; rfl, by rw [hframe]; rfl, by rw [hframe], by rw [hcustody], by rw [hcustody], fun i => ?_, by rw [hframe]; rfl,
    fun k => ?_, by rw [hframe]; rfl, fun k => by rw [hlink]; rfl, by rw [hloader], by rw [hloader], by rw [hloader], ?_⟩
  · rw [controlBlockReadDone_eq data s hrun hs hgot, controlBlockDone_loads _ hpass]
  · rw [settle_run, State.run, hregs]
    exact hrun
  · rw [memory_eq, hhost]
    rfl
  · rw [hframe]
    exact vmap_get _ _ _
  · rw [hframe]
    exact replicate_get _ _
  · exact ⟨hqueue .loader, hqueue .probe, hqueue .campaign, hqueue .journal, (hqueue .request).trans (List.append_nil _),
      fun k => hqueue (.link k), hqueue .window, hqueue .custody, by rw [hcustody]⟩

end

section
/-! PROOF. What a halt sets aside (10 R173 R177, 01 R23, 02 R44, 03 R69, 09 R167): the accesses that stay handed over, and the selection
steps that end with no outcome. -/

namespace Sys2Proof.Machine

/-! ### Accesses already handed over (10 R178) -/

/-- The accesses of a requester's queue by what they do in memory. -/
def State.handed (s : State) (r : Requester) : List (Word × Option Word) := (s.queue r).map (fun a => (a.addr, a.write))

/-- An operation given up leaves its accesses in the queues (10 R173). -/
theorem orphan_handed (p : Tag → Bool) (s : State) (r : Requester) : (orphan p s).handed r = s.handed r := by
  rw [State.handed, orphan_queue_map, List.map_map]
  refine List.map_congr_left fun a _ => ?_
  simp only [Function.comp, orphanAccess]
  split <;> rfl

theorem handed_of_master {s t : State} (h : t.master = s.master) (r : Requester) : t.handed r = s.handed r :=
  congrArg (fun m : Master => (m.queues.get r.index).map (fun a : Access => (a.addr, a.write))) h

theorem handWrite_handed (q r : Requester) (addr data : Word) (tag : Tag) (s : State) :
    (handWrite q addr data tag s).handed r = s.handed r ++ if r = q then [(addr, some data)] else [] := by
  rw [State.handed, handWrite_queue_of]
  split
  · next h => rw [h, List.map_append]; rfl
  · exact (List.append_nil _).symm

/-! ### Selection steps dropped (03 R69) -/

/-- The request is a live selection of a campaign. -/
def CustodyReq.selects (r : CustodyReq) (i : Fin 8) : Prop := ∃ id c, r = .select i id c true

/-- From `s` to `t` the campaigns of `dropped` end their step with no outcome; the rest of the Campaign Table stands. -/
structure StepsDropped (s t : State) (dropped : Fin 8 → Prop) : Prop where
  ctrl : t.ctrl = { s.ctrl with slots := t.ctrl.slots }
  ends : ∀ i, dropped i → t.campaign i = { s.campaign i with step := .idle }
  stands : ∀ i, ¬ dropped i → t.campaign i = s.campaign i

theorem StepsDropped.of_ctrl {s t : State} {dropped : Fin 8 → Prop} (h : t.ctrl = s.ctrl) (hnone : ∀ i, ¬ dropped i) :
    StepsDropped s t dropped where
  ctrl := by rw [h]
  ends i hi := absurd hi (hnone i)
  stands i _ := congrArg (fun c : Controller => c.slots.get i) h

theorem StepsDropped.trans {s t u : State} {p q : Fin 8 → Prop} (h : StepsDropped s t p) (k : StepsDropped t u q) :
    StepsDropped s u (fun i => p i ∨ q i) where
  ctrl := by rw [k.ctrl, h.ctrl]
  ends i hi := by
    by_cases hq : q i
    · rw [k.ends i hq]
      by_cases hp : p i
      · rw [h.ends i hp]
      · rw [h.stands i hp]
    · rw [k.stands i hq, h.ends i (hi.resolve_right hq)]
  stands i hi := by
    rw [k.stands i fun hq => hi (.inr hq), h.stands i fun hp => hi (.inl hp)]

theorem dropSelection_frame (s : State) (r : CustodyReq) : dropSelection s r = { s with ctrl := (dropSelection s r).ctrl } := by
  unfold dropSelection
  split
  · split <;> rfl
  · rfl
  · rfl
  · rfl

theorem dropSelection_drops (s : State) (r : CustodyReq) : StepsDropped s (dropSelection s r) r.selects := by
  match r with
  | .select i id c true =>
    have hdrop : dropSelection s (.select i id c true) = modCampaign i (fun c => { c with step := .idle }) s := rfl
    rw [hdrop]
    refine ⟨rfl, ?_, fun j hj => (modCampaign_campaign i j _ s).trans (if_neg ?_)⟩
    · rintro j ⟨_, _, h⟩
      obtain rfl : i = j := by injection h
      exact (modCampaign_campaign i i _ s).trans (if_pos rfl)
    · rintro rfl
      exact hj ⟨id, c, rfl⟩
  | .select i id c false => exact .of_ctrl rfl (by simp [CustodyReq.selects])
  | .sweep c => exact .of_ctrl rfl (by simp [CustodyReq.selects])
  | .load c => exact .of_ctrl rfl (by simp [CustodyReq.selects])
  | .compare e c => exact .of_ctrl rfl (by simp [CustodyReq.selects])

theorem dropSelections_frame (l : List CustodyReq) (s : State) :
    l.foldl dropSelection s = { s with ctrl := (l.foldl dropSelection s).ctrl } := by
  induction l generalizing s with
  | nil => rfl
  | cons r l ih =>
    rw [List.foldl_cons, ih (dropSelection s r), dropSelection_frame]

theorem dropSelections_drop (l : List CustodyReq) (s : State) :
    StepsDropped s (l.foldl dropSelection s) (fun i => ∃ r ∈ l, r.selects i) := by
  induction l generalizing s with
  | nil => exact .of_ctrl rfl (by simp)
  | cons r l ih =>
    have h := (dropSelection_drops s r).trans (ih (dropSelection s r))
    simpa using h

/-! ### The Custody Unit at a halt (01 R23, 06 R127) -/

/-- A custody action that a halt from RUNNING abandons. -/
def Action.abandoned (a : Action) : Bool := a.phase.isReading && !a.req.isCompare

theorem haltAction_abandons (s : State) (a : Action) (ha : s.custody.action = some a) (h : a.abandoned = true) :
    haltAction s = orphan (fun g => decide (g = .record) || decide (g = .route)) (dropSelection (setAction none s) a.req) := by
  simp only [haltAction, ha]
  exact if_pos h

theorem haltAction_rests (s : State) (h : ∀ a, s.custody.action = some a → a.abandoned = false) : haltAction s = s := by
  unfold haltAction
  split
  · next a ha => exact if_neg (by rw [← Action.abandoned, h a ha]; decide)
  · rfl

/-- The action is abandoned, or the state stands. -/
theorem haltAction_cases (s : State) : (∃ a, s.custody.action = some a ∧ a.abandoned = true) ∨
    ∀ a, s.custody.action = some a → a.abandoned = false := by
  by_cases h : ∃ a, s.custody.action = some a ∧ a.abandoned = true
  · exact .inl h
  · exact .inr fun a ha => Bool.eq_false_iff.2 fun hb => h ⟨a, ha, hb⟩

/-- What a halt from RUNNING makes of the action in flight. -/
structure ActionHalted (s t : State) : Prop where
  frame : t = { s with custody := { s.custody with action := t.custody.action }, ctrl := t.ctrl, master := t.master }
  gone : ∀ a, s.custody.action = some a → a.abandoned = true → t.custody.action = none
  kept : (∀ a, s.custody.action = some a → a.abandoned = false) → t.custody.action = s.custody.action
  steps : StepsDropped s t (fun i => ∃ a, s.custody.action = some a ∧ a.abandoned = true ∧ a.req.selects i)
  handed : ∀ r, t.handed r = s.handed r

theorem haltAction_halted (s : State) : ActionHalted s (haltAction s) := by
  rcases haltAction_cases s with ⟨a, ha, h⟩ | h
  · rw [haltAction_abandons s a ha h]
    have hdrop := dropSelection_frame (setAction none s) a.req
    have hsteps := dropSelection_drops (setAction none s) a.req
    refine ⟨?_, fun _ _ _ => ?_, fun hno => absurd h (by simp [hno a ha]), ⟨hsteps.ctrl, ?_, ?_⟩, fun r => ?_⟩
    · rw [hdrop]
      rfl
    · exact congrArg (·.custody.action) hdrop
    · rintro i ⟨b, hb, -, hi⟩
      obtain rfl : a = b := Option.some.inj (ha.symm.trans hb)
      exact hsteps.ends i hi
    · exact fun i hi => hsteps.stands i fun hs => hi ⟨a, ha, h, hs⟩
    · rw [orphan_handed]
      exact handed_of_master (congrArg (·.master) hdrop) r
  · rw [haltAction_rests s h]
    exact ⟨rfl, fun a ha hb => absurd hb (by simp [h a ha]), fun _ => rfl,
      .of_ctrl rfl fun i ⟨a, ha, hb, _⟩ => absurd hb (by simp [h a ha]), fun _ => rfl⟩

theorem haltQueue_frame (s : State) : haltQueue s = { s with
    ctrl := (haltQueue s).ctrl, custody := { s.custody with queue := s.custody.queue.filter (fun x => x.2.isCompare) } } := by
  simp only [haltQueue]
  rw [dropSelections_frame]

theorem haltQueue_drops (s : State) : StepsDropped s (haltQueue s) (fun i => ∃ x ∈ s.custody.queue, x.2.selects i) := by
  have h := dropSelections_drop (s.custody.queue.map (fun x => x.2)) s
  simp only [List.mem_map, exists_exists_and_eq_and] at h
  exact ⟨h.ctrl, h.ends, h.stands⟩

/-! ### The part at a halt from RUNNING, before a stalled entry is abandoned (10 R177) -/

/-- The reader at a halt (09 R167). -/
def haltedReader (r : Reader) : Reader :=
  { r with
    pollTimer := none, sweep := .idle, sweepPending := false, stage := if r.stage = .answered then .answered else .none }

/-- The part with every block's work set aside. -/
def State.setAside (s : State) : State := haltReader (haltRefresh (haltQueue (haltAction s)))

/-- The refresh and the reader's work go without a look at the Custody Unit. -/
theorem setAside_of_frames {s t q : State}
    (ht : t = { s with custody := { s.custody with action := t.custody.action }, ctrl := t.ctrl, master := t.master })
    (hq : q = { t with
      ctrl := q.ctrl, custody := { t.custody with queue := t.custody.queue.filter (fun x => x.2.isCompare) } }) :
    let u := haltReader (haltRefresh q)
    u = { s with
      custody := { s.custody with action := t.custody.action, queue := s.custody.queue.filter (fun x => x.2.isCompare) }
      ctrl := u.ctrl, master := u.master, sched := { s.sched with refresh := none }, reader := haltedReader s.reader } := by
  intro u
  have hu : u = { q with
    master := u.master, sched := { q.sched with refresh := none }, reader := haltedReader q.reader } := rfl
  rw [hu, hq, ht]

theorem setAside_frame (s : State) : s.setAside = { s with
    custody := { s.custody with
      action := (haltAction s).custody.action, queue := s.custody.queue.filter (fun x => x.2.isCompare) }
    ctrl := s.setAside.ctrl, master := s.setAside.master, sched := { s.sched with refresh := none }
    reader := haltedReader s.reader } :=
  setAside_of_frames (haltAction_halted s).frame (haltQueue_frame (haltAction s))

theorem setAside_handed (s : State) (r : Requester) : s.setAside.handed r = s.handed r := by
  have hqueue : (haltQueue (haltAction s)).master = (haltAction s).master := by rw [haltQueue_frame]
  rw [State.setAside, haltReader, orphan_handed]
  show (haltRefresh (haltQueue (haltAction s))).handed r = _
  rw [haltRefresh, orphan_handed]
  exact (handed_of_master hqueue r).trans ((haltAction_halted s).handed r)

theorem setAside_drops (s : State) : StepsDropped s s.setAside (fun i =>
    (∃ a, s.custody.action = some a ∧ a.abandoned = true ∧ a.req.selects i) ∨ ∃ x ∈ s.custody.queue, x.2.selects i) := by
  have haction := haltAction_halted s
  have hqueue : (haltAction s).custody.queue = s.custody.queue := by rw [haction.frame]
  have h := haction.steps.trans (haltQueue_drops (haltAction s))
  rw [hqueue] at h
  exact ⟨h.ctrl, h.ends, h.stands⟩

end Sys2Proof.Machine

end

section
/-! PROOF. The stalled entry that a halt abandons (08 R155, 01 R23, 03 R69, 06 R127): in STOPPING and in HALTED neither a sweep nor a load
goes on with the custody action that its entry ends. -/

namespace Sys2Proof.Machine

/-! ### The end of a custody action outside RUNNING and LOADING (03 R69) -/

theorem endStep_custody (i : Fin 8) (s : State) (hr : s.run ≠ .running) : (endStep i s).custody = s.custody := by
  obtain ⟨-, -, -, -, -, -, -, hlast, hnext⟩ := endStep_cases i s
  rcases Nat.lt_or_ge ((s.campaign i).nextCursor s.params.circuitCount) s.params.circuitCount with h | h
  · exact ((hnext h).2.2 hr).2
  · exact (hlast h).2.1

theorem stepOutcome_custody (i : Fin 8) (o : SelectOutcome) (s : State) (hr : s.run ≠ .running) :
    (stepOutcome i o s).custody = s.custody := by
  by_cases h : s.run = .stopping ∧ (s.campaign i).state = .selecting ∧ (s.campaign i).step = .custody
  · obtain ⟨hstop, hstate, hstep⟩ := h
    rw [stepOutcome_waiting i s o (.inr hstop) hstate hstep]
    cases o with
    | notWatched => exact endStep_custody i s hr
    | unusable => exact endStep_custody i s hr
    | rejected => exact endStep_custody i _ hr
    | watched sel => simp only [if_neg hr]; rfl
    | claimed sel => simp only [if_neg hr]; rfl
  · rw [stepOutcome_outside i s o (by tauto)]

theorem endAction_custody (s : State) (a : Action) (o : SelectOutcome) (ha : s.custody.action = some a) (hrun : s.run ≠ .running)
    (hload : s.run ≠ .loading) : (endAction o s).custody = { s.custody with action := none } := by
  cases hr : a.req with
  | sweep c => rw [endAction_sweep o s a c ha hr, sweepNext_outside (setAction none s) (.inl hrun)]; rfl
  | load c => rw [endAction_load o s a c ha hr, loadNext_outside (setAction none s) (.inl hload)]; rfl
  | compare e c => simp only [endAction, ha, hr]; rfl
  | select i id c live =>
    rw [endAction_select o s a i id c live ha hr]
    split
    · exact stepOutcome_custody i o (setAction none s) hrun
    · rfl

/-- An action that does not wait for an entry stands. -/
theorem custodyEntryDone_rests (s : State) (h : ∀ a o, s.custody.action = some a → a.phase ≠ .entry o) : custodyEntryDone s = s := by
  unfold custodyEntryDone
  split
  · next a ha =>
    split
    · next o hp => exact absurd hp (h a o ha)
    all_goals rfl
  · rfl

theorem custodyEntryDone_custody (s : State) (hrun : s.run ≠ .running) (hload : s.run ≠ .loading) :
    (custodyEntryDone s).custody = { s.custody with action := (custodyEntryDone s).custody.action } := by
  by_cases h : ∃ a o, s.custody.action = some a ∧ a.phase = .entry o
  · obtain ⟨a, o, ha, hp⟩ := h
    rw [custodyEntryDone_ends s a o ha hp, endAction_custody s a o ha hrun hload]
  · rw [custodyEntryDone_rests s fun a o ha hp => h ⟨a, o, ha, hp⟩]

theorem custodyEntryDone_over (s : State) (a : Action) (o : SelectOutcome) (ha : s.custody.action = some a) (hp : a.phase = .entry o)
    (hrun : s.run ≠ .running) (hload : s.run ≠ .loading) : (custodyEntryDone s).custody.action = none := by
  rw [custodyEntryDone_ends s a o ha hp, endAction_custody s a o ha hrun hload]

/-- In HALTED the end of the action is all that happens. -/
theorem custodyEntryDone_halted (s : State) (hr : s.run = .halted) : custodyEntryDone s = s ∨ custodyEntryDone s = setAction none s := by
  have hrun : (setAction none s).run = .halted := hr
  rcases custodyEntryDone_cases s with h | h | h | h | ⟨i, o, h⟩
  · exact .inl h
  · exact .inr h
  · exact .inr (h.trans (sweepNext_outside _ (.inl (by rw [hrun]; decide))))
  · exact .inr (h.trans (loadNext_outside _ (.inl (by rw [hrun]; decide))))
  · exact .inr (h.trans (stepOutcome_unused i o _ (by rw [hrun]; decide) (by rw [hrun]; decide)))

/-! ### The stalled entry (08 R155) -/

/-- The journal with its entry in hand given up. -/
def Journal.givenUp (j : Journal) : Journal := { j with phase := .idle, hand := none }

/-- The source of the entry in hand is told of an entry given up. -/
def State.giveUp (s : State) (src : Source) : State := toldAbandoned src { s with journal := s.journal.givenUp }

theorem haltJournal_rests (s : State) (h : s.journal.phase ≠ .stalled) : haltJournal s = s := if_neg h

theorem haltJournal_empty (s : State) (h : s.journal.hand = none) : haltJournal s = s := by
  unfold haltJournal abandonHand
  rw [h]
  exact ite_self s

theorem haltJournal_abandons (s : State) (src : Source) (e : JournalEntry) (h : s.journal.phase = .stalled)
    (hh : s.journal.hand = some (src, e)) : haltJournal s = s.giveUp src := by
  unfold haltJournal abandonHand
  rw [if_pos h, hh]
  rfl

/-- The state stands, or a source is told of its entry given up. -/
theorem haltJournal_cases (s : State) :
    haltJournal s = s ∨ ∃ src, haltJournal s = s.giveUp src := by
  by_cases h : s.journal.phase = .stalled
  · cases hh : s.journal.hand with
    | none => exact .inl (haltJournal_empty s hh)
    | some x => exact .inr ⟨x.1, haltJournal_abandons s x.1 x.2 h hh⟩
  · exact .inl (haltJournal_rests s h)

theorem toldAbandoned_custody (src : Source) (s : State) (hrun : s.run ≠ .running) (hload : s.run ≠ .loading) :
    (toldAbandoned src s).custody = { s.custody with action := (toldAbandoned src s).custody.action } := by
  cases src with
  | comparator => rfl
  | campaign => rfl
  | custody => exact custodyEntryDone_custody s hrun hload

/-- A custody action that is over stays over. -/
theorem toldAbandoned_no_action (src : Source) (s : State) (h : s.custody.action = none) :
    (toldAbandoned src s).custody.action = none := by
  cases src with
  | comparator => rfl
  | campaign => exact h
  | custody =>
    show (custodyEntryDone s).custody.action = none
    rw [custodyEntryDone_rests s (by simp [h]), h]

/-- In STOPPING the entry given up reaches the Custody Unit's action, the Campaign Table, the Comparator and the accesses. -/
theorem toldAbandoned_frame (src : Source) (s : State) (hr : s.run = .stopping) : toldAbandoned src s = { s with
    custody := { s.custody with action := (toldAbandoned src s).custody.action }, ctrl := (toldAbandoned src s).ctrl
    cmp := (toldAbandoned src s).cmp, master := (toldAbandoned src s).master } := by
  have hcustody := toldAbandoned_custody src s (by rw [hr]; decide) (by rw [hr]; decide)
  rw [← hcustody]
  exact toldAbandoned_stopping s src hr

theorem giveUp_journal (s : State) (src : Source) : (s.giveUp src).journal = s.journal.givenUp := toldAbandoned_journal src _

theorem giveUp_no_action (s : State) (src : Source) (h : s.custody.action = none) : (s.giveUp src).custody.action = none :=
  toldAbandoned_no_action src _ h

/-- The custody action that waits for the entry ends. -/
theorem giveUp_entry (s : State) (a : Action) (o : SelectOutcome) (ha : s.custody.action = some a) (hp : a.phase = .entry o)
    (hrun : s.run ≠ .running) (hload : s.run ≠ .loading) : (s.giveUp .custody).custody.action = none :=
  custodyEntryDone_over { s with journal := s.journal.givenUp } a o ha hp hrun hload

/-- The Comparator is IDLE: its verdict's entry is given up (06 R127). -/
theorem giveUp_comparator (s : State) :
    (s.giveUp .comparator).cmp = { lastOutcome := s.cmp.lastOutcome } ∧ (s.giveUp .comparator).custody.action = none := ⟨rfl, rfl⟩

theorem giveUp_campaign (s : State) : (s.giveUp .campaign).ctrl.offer = none := rfl

theorem giveUp_frame (s : State) (src : Source) (hr : s.run = .stopping) : s.giveUp src = { s with
    custody := { s.custody with action := (s.giveUp src).custody.action }, ctrl := (s.giveUp src).ctrl
    cmp := (s.giveUp src).cmp, journal := (s.giveUp src).journal, master := (s.giveUp src).master } := by
  have h := toldAbandoned_frame src { s with journal := s.journal.givenUp } hr
  rw [State.giveUp, toldAbandoned_journal]
  exact h

theorem giveUp_cmp (s : State) (src : Source) (hr : s.run = .stopping) (h : src ≠ .comparator) : (s.giveUp src).cmp = s.cmp := by
  cases src with
  | comparator => exact absurd rfl h
  | campaign => rfl
  | custody =>
    have hframe := custodyEntryDone_stopping { s with journal := s.journal.givenUp } hr
    rw [show s.giveUp .custody = _ from hframe]

/-- In HALTED it hands nothing over, and of the Campaign Table it reaches the offer alone. -/
theorem giveUp_halted (s : State) (src : Source) (hr : s.run = .halted) : s.giveUp src = { s with
    custody := { s.custody with action := (s.giveUp src).custody.action }, journal := s.journal.givenUp
    ctrl := { s.ctrl with offer := (s.giveUp src).ctrl.offer }, cmp := (s.giveUp src).cmp } := by
  cases src with
  | comparator => rfl
  | campaign => rfl
  | custody =>
    rcases custodyEntryDone_halted { s with journal := s.journal.givenUp } hr with h | h
    · rw [show s.giveUp .custody = _ from h]
    · rw [show s.giveUp .custody = _ from h]
      rfl

theorem giveUp_halted_ctrl (s : State) (src : Source) (hr : s.run = .halted) (h : src ≠ .campaign) : (s.giveUp src).ctrl = s.ctrl := by
  cases src with
  | comparator => rfl
  | campaign => exact absurd rfl h
  | custody =>
    rcases custodyEntryDone_halted { s with journal := s.journal.givenUp } hr with h | h
    · rw [show s.giveUp .custody = _ from h]
    · rw [show s.giveUp .custody = _ from h]
      rfl

/-- In HALTED a stalled entry given up hands nothing over. -/
theorem haltJournal_halted (s : State) (hr : s.run = .halted) : haltJournal s = { s with
    custody := { s.custody with action := (haltJournal s).custody.action }, journal := (haltJournal s).journal
    ctrl := { s.ctrl with offer := (haltJournal s).ctrl.offer }, cmp := (haltJournal s).cmp } := by
  rcases haltJournal_cases s with h | ⟨src, h⟩
  · rw [h]
  · rw [h, giveUp_journal]
    exact giveUp_halted s src hr

/-- In STOPPING it reaches the Custody Unit's action, the Campaign Table, the Comparator and the accesses. -/
theorem haltJournal_stopping (s : State) (hr : s.run = .stopping) : haltJournal s = { s with
    custody := { s.custody with action := (haltJournal s).custody.action }, ctrl := (haltJournal s).ctrl
    cmp := (haltJournal s).cmp, journal := (haltJournal s).journal, master := (haltJournal s).master } := by
  rcases haltJournal_cases s with h | ⟨src, h⟩
  · rw [h]
  · rw [h]
    exact giveUp_frame s src hr

/-- A custody action that is over stays over. -/
theorem haltJournal_no_action (s : State) (h : s.custody.action = none) : (haltJournal s).custody.action = none := by
  rcases haltJournal_cases s with hj | ⟨src, hj⟩
  · rw [hj, h]
  · rw [hj, giveUp_no_action s src h]

end Sys2Proof.Machine

end

section
/-! PROOF. A halt request (10 R173): from RUNNING the work set aside and a stalled entry given up, from LOADING the load abandoned, in
the other run states the registers alone. -/

namespace Sys2Proof.Machine

/-! ### The register (10 R169) -/

/-- The part with CONTROL's fields as a halt takes them. -/
def State.halting (s : State) (value : Word) : State :=
  { s with regs := { s.regs with irqEn := value.getLsbD 10, pollNow := s.regs.pollNow || value.getLsbD 9 } }

theorem controlFields_eq (value : Word) (s : State) : controlFields value s = s.halting value := by
  unfold controlFields State.halting
  cases value.getLsbD 9
  · rw [Bool.or_false]
    rfl
  · rw [Bool.or_true]
    rfl

theorem controlWrite_halts (value : Word) (s : State) (h : value.getLsbD 8 = true) :
    controlWrite value s = settle (haltRequest (s.halting value)) := by
  rw [← controlFields_eq]
  exact if_pos h

/-- In HALTED, STOPPING and FAULTED a halt request reaches the run state alone. -/
theorem haltRequest_idle (s : State) (hrunning : s.run ≠ .running) (hloading : s.run ≠ .loading) :
    haltRequest s = { s with regs := (haltRequest s).regs } := by
  unfold haltRequest
  split
  · rfl
  · next h => exact absurd h hloading
  · next h => exact absurd h hrunning
  · rfl
  · rfl

/-! ### From RUNNING (10 R177) -/

/-- The part as a stop begins. -/
def State.stopBegun (s : State) : State := runStateWrite .stopping .plain (setRun .stopping s)

/-- The part as a stop has set its work aside. -/
def State.stopped (s : State) : State := s.stopBegun.setAside

theorem haltRequest_running (s : State) (h : s.run = .running) : haltRequest s = haltJournal s.stopped := by
  simp only [haltRequest, h]
  rfl

theorem stopBegun_handed (s : State) (r : Requester) : s.stopBegun.handed r =
    s.handed r ++ if r = .loader then [(addrOf s.params.controlBlock 0x100, some 3#32)] else [] :=
  handWrite_handed .loader r _ _ .plain (setRun .stopping s)

section Stopped

variable (s : State)

theorem stopped_frame : s.stopped = { s with
    regs := { s.regs with runState := .stopping }
    custody := { s.custody with action := s.stopped.custody.action, queue := s.custody.queue.filter (fun x => x.2.isCompare) }
    ctrl := s.stopped.ctrl, master := s.stopped.master, sched := { s.sched with refresh := none }
    reader := haltedReader s.reader } := by
  have haction : s.stopped.custody.action = (haltAction s.stopBegun).custody.action := by rw [State.stopped, setAside_frame]
  rw [haction]
  exact setAside_frame s.stopBegun

theorem stopped_run : s.stopped.run = .stopping := by
  rw [stopped_frame]
  rfl

theorem stopped_custody : s.stopped.custody.map = s.custody.map ∧
    s.stopped.custody.queue = s.custody.queue.filter (fun x => x.2.isCompare) := by
  rw [stopped_frame]
  exact ⟨rfl, rfl⟩

theorem stopped_abandons (a : Action) (ha : s.custody.action = some a) (h : a.abandoned = true) :
    s.stopped.custody.action = none := by
  rw [State.stopped, setAside_frame]
  exact (haltAction_halted s.stopBegun).gone a ha h

theorem stopped_keeps (a : Action) (ha : s.custody.action = some a) (h : a.abandoned = false) :
    s.stopped.custody.action = some a := by
  have hkept : ∀ b, s.stopBegun.custody.action = some b → b.abandoned = false := by
    intro b hb
    obtain rfl : a = b := Option.some.inj (ha.symm.trans hb)
    exact h
  rw [State.stopped, setAside_frame]
  exact ((haltAction_halted s.stopBegun).kept hkept).trans ha

theorem stopped_handed (r : Requester) : s.stopped.handed r =
    s.handed r ++ if r = .loader then [(addrOf s.params.controlBlock 0x100, some 3#32)] else [] :=
  (setAside_handed s.stopBegun r).trans (stopBegun_handed s r)

/-- The campaign has a live selection that is dropped: it waits in the Custody Unit, or its action still reads. -/
def State.dropped (i : Fin 8) : Prop :=
  (∃ n id c, (n, CustodyReq.select i id c true) ∈ s.custody.queue) ∨
  (∃ a id c, s.custody.action = some a ∧ a.phase.isReading = true ∧ a.req = .select i id c true)

/-- A selection is never the Comparator's, so that it is abandoned while it reads. -/
theorem dropped_iff (i : Fin 8) : s.dropped i ↔
    (∃ a, s.custody.action = some a ∧ a.abandoned = true ∧ a.req.selects i) ∨ ∃ x ∈ s.custody.queue, x.2.selects i := by
  constructor
  · rintro (⟨n, id, c, hx⟩ | ⟨a, id, c, ha, hread, hreq⟩)
    · exact .inr ⟨_, hx, id, c, rfl⟩
    · refine .inl ⟨a, ha, ?_, id, c, hreq⟩
      rw [Action.abandoned, hread, hreq]
      rfl
  · rintro (⟨a, ha, hgone, id, c, hreq⟩ | ⟨⟨n, r⟩, hx, id, c, hr⟩)
    · exact .inr ⟨a, id, c, ha, (Bool.and_eq_true_iff.1 hgone).1, hreq⟩
    · obtain rfl : r = .select i id c true := hr
      exact .inl ⟨n, id, c, hx⟩

theorem stopped_drops : StepsDropped s s.stopped s.dropped := by
  have h := setAside_drops s.stopBegun
  exact ⟨h.ctrl, fun i hi => h.ends i ((dropped_iff s i).1 hi), fun i hi => h.stands i fun hd => hi ((dropped_iff s i).2 hd)⟩

/-- What a halt from RUNNING comes to. -/
theorem haltJournal_stopped_frame : haltJournal s.stopped = { s with
    regs := (haltJournal s.stopped).regs, custody := (haltJournal s.stopped).custody
    ctrl := (haltJournal s.stopped).ctrl, master := (haltJournal s.stopped).master, cmp := (haltJournal s.stopped).cmp
    journal := (haltJournal s.stopped).journal, sched := { s.sched with refresh := none }, reader := haltedReader s.reader } := by
  have hjournal := haltJournal_stopping s.stopped (stopped_run s)
  have hstopped := stopped_frame s
  generalize haltJournal s.stopped = u at hjournal ⊢
  generalize s.stopped = w at hjournal hstopped
  rw [hjournal, hstopped]

/-- The map stands, and of the queue the Comparator's requests (01 R23, 06 R127). -/
theorem haltJournal_stopped_custody : (haltJournal s.stopped).custody.map = s.custody.map ∧
    (haltJournal s.stopped).custody.queue = s.custody.queue.filter (fun x => x.2.isCompare) := by
  rw [haltJournal_stopping s.stopped (stopped_run s)]
  exact stopped_custody s

theorem stopped_nextId : s.stopped.ctrl.nextId = s.ctrl.nextId := by rw [(stopped_drops s).ctrl]

theorem stopped_offer : s.stopped.ctrl.offer = s.ctrl.offer := by rw [(stopped_drops s).ctrl]

theorem stopped_journal : s.stopped.journal = s.journal := by rw [stopped_frame]

theorem stopped_cmp : s.stopped.cmp = s.cmp := by rw [stopped_frame]

/-- With no stalled entry the work set aside is all that happens. -/
theorem haltJournal_stopped_rests (h : s.journal.phase ≠ .stalled) : haltJournal s.stopped = s.stopped :=
  haltJournal_rests _ (by rwa [stopped_journal])

theorem haltJournal_stopped_abandons (src : Source) (e : JournalEntry) (h : s.journal.phase = .stalled)
    (hh : s.journal.hand = some (src, e)) : haltJournal s.stopped = s.stopped.giveUp src :=
  haltJournal_abandons _ src e (by rwa [stopped_journal]) (by rwa [stopped_journal])

/-- An action still reading that is not the Comparator's is over, whatever becomes of a stalled entry. -/
theorem haltJournal_stopped_ends (a : Action) (ha : s.custody.action = some a) (h : a.abandoned = true) :
    (haltJournal s.stopped).custody.action = none := haltJournal_no_action _ (stopped_abandons s a ha h)

/-- The action that waits for the stalled entry ends with it. -/
theorem giveUp_stopped_entry (a : Action) (o : SelectOutcome) (ha : s.custody.action = some a) (hp : a.phase = .entry o) :
    (s.stopped.giveUp .custody).custody.action = none := by
  have hkept := stopped_keeps s a ha (by rw [Action.abandoned, hp]; rfl)
  have hrun := stopped_run s
  exact giveUp_entry _ a o hkept hp (by rw [hrun]; decide) (by rw [hrun]; decide)

end Stopped

/-! ### From LOADING (10 R176) -/

/-- The part as a halt ends the load, before its custody action. -/
def State.loadEnded (s : State) : State :=
  orphan (fun g => decide (g = .controlBlock) || decide (g = .loadWindow)) (modLoader (fun _ => {}) (setRun .halted s))

/-- The part as a halt has ended the load and its custody action. -/
def State.loadHalted (s : State) : State := haltLoadAction s.loadEnded

theorem haltRequest_loading (s : State) (h : s.run = .loading) : haltRequest s = haltJournal s.loadHalted := by
  simp only [haltRequest, h]
  rfl

theorem loadEnded_handed (s : State) (r : Requester) : s.loadEnded.handed r = s.handed r := orphan_handed _ _ r

section LoadAction

variable {s : State} {a : Action} (ha : s.custody.action = some a)
include ha

theorem haltLoadAction_reading (h : a.phase.isReading = true) : ∃ p, haltLoadAction s = orphan p (setAction none s) := by
  cases hp : a.phase with
  | reading got => exact ⟨fun g => decide (g = .record), by simp only [haltLoadAction, ha, hp]⟩
  | routing x got => exact ⟨fun g => decide (g = .route), by simp only [haltLoadAction, ha, hp]⟩
  | writing next => simp [hp, ActionPhase.isReading] at h
  | entry o => simp [hp, ActionPhase.isReading] at h
  | comparing => simp [hp, ActionPhase.isReading] at h

theorem haltLoadAction_finishing {o : SelectOutcome} (h : a.phase = .writing (.finish o)) : haltLoadAction s = s := by
  simp only [haltLoadAction, ha, h]

theorem haltLoadAction_journaling {rev v b ids o} (h : a.phase = .writing (.journal rev v b ids o)) :
    haltLoadAction s = setAction (some { a with phase := .writing (.finish o) }) s := by
  simp only [haltLoadAction, ha, h]

theorem haltLoadAction_offered {o : SelectOutcome} (h : a.phase = .entry o) (hoffer : s.journal.custOffer.isSome = true) :
    haltLoadAction s = setAction none (modJournal (fun j => { j with custOffer := none }) s) := by
  simp only [haltLoadAction, ha, h, if_pos hoffer]

theorem haltLoadAction_taken {o : SelectOutcome} (h : a.phase = .entry o) (hoffer : s.journal.custOffer = none) :
    haltLoadAction s = s := by
  simp [haltLoadAction, ha, h, hoffer]

theorem haltLoadAction_comparing (h : a.phase = .comparing) : haltLoadAction s = s := by
  simp only [haltLoadAction, ha, h]

end LoadAction

theorem haltLoadAction_none {s : State} (h : s.custody.action = none) : haltLoadAction s = s := by
  simp only [haltLoadAction, h]

/-- The action that a halted load leaves, with the journal's offer and the accesses. -/
structure LoadActionHalted (s t : State) : Prop where
  frame : t = { s with custody := { s.custody with action := t.custody.action }, journal := t.journal, master := t.master }
  journal : t.journal = { s.journal with custOffer := t.journal.custOffer }
  handed : ∀ r, t.handed r = s.handed r

theorem LoadActionHalted.refl (s : State) : LoadActionHalted s s := ⟨rfl, rfl, fun _ => rfl⟩

theorem haltLoadAction_halted (s : State) : LoadActionHalted s (haltLoadAction s) := by
  cases ha : s.custody.action with
  | none =>
    rw [haltLoadAction_none ha]
    exact .refl s
  | some a =>
    have hreading : a.phase.isReading = true → LoadActionHalted s (haltLoadAction s) := by
      intro h
      obtain ⟨p, hp⟩ := haltLoadAction_reading ha h
      rw [hp]
      exact ⟨rfl, rfl, fun r => orphan_handed p _ r⟩
    cases hp : a.phase with
    | reading got => exact hreading (by rw [hp]; rfl)
    | routing x got => exact hreading (by rw [hp]; rfl)
    | writing next =>
      cases next with
      | finish o =>
        rw [haltLoadAction_finishing ha hp]
        exact .refl s
      | journal rev v b ids o =>
        rw [haltLoadAction_journaling ha hp]
        exact ⟨rfl, rfl, fun _ => rfl⟩
    | entry o =>
      cases hoffer : s.journal.custOffer with
      | none =>
        rw [haltLoadAction_taken ha hp hoffer]
        exact .refl s
      | some e =>
        rw [haltLoadAction_offered ha hp (by rw [hoffer]; rfl)]
        exact ⟨rfl, rfl, fun _ => rfl⟩
    | comparing =>
      rw [haltLoadAction_comparing ha hp]
      exact .refl s

/-! ### The load abandoned, before a stalled entry is given up -/

section LoadHalted

variable (s : State)

theorem loadHalted_action : LoadActionHalted s.loadEnded s.loadHalted := haltLoadAction_halted s.loadEnded

theorem loadHalted_frame : s.loadHalted = { s with
    regs := { s.regs with runState := .halted }, loader := {}
    custody := { s.custody with action := s.loadHalted.custody.action }
    journal := s.loadHalted.journal, master := s.loadHalted.master } := (loadHalted_action s).frame

theorem loadHalted_run : s.loadHalted.run = .halted := by
  rw [loadHalted_frame]
  rfl

theorem loadHalted_journal : s.loadHalted.journal = { s.journal with custOffer := s.loadHalted.journal.custOffer } :=
  (loadHalted_action s).journal

theorem loadHalted_handed (r : Requester) : s.loadHalted.handed r = s.handed r :=
  ((loadHalted_action s).handed r).trans (loadEnded_handed s r)

theorem haltJournal_loadHalted_frame : haltJournal s.loadHalted = { s with
    regs := (haltJournal s.loadHalted).regs, loader := {}, master := (haltJournal s.loadHalted).master
    custody := { s.custody with action := (haltJournal s.loadHalted).custody.action }
    ctrl := (haltJournal s.loadHalted).ctrl, cmp := (haltJournal s.loadHalted).cmp
    journal := (haltJournal s.loadHalted).journal } := by
  have hjournal := haltJournal_halted s.loadHalted (loadHalted_run s)
  have hhalted := loadHalted_frame s
  generalize haltJournal s.loadHalted = u at hjournal ⊢
  generalize s.loadHalted = w at hjournal hhalted
  rw [hjournal, hhalted]

theorem haltJournal_loadHalted_handed (r : Requester) : (haltJournal s.loadHalted).handed r = s.handed r := by
  have hmaster : (haltJournal s.loadHalted).master = s.loadHalted.master := by
    rw [haltJournal_halted s.loadHalted (loadHalted_run s)]
  exact (handed_of_master hmaster r).trans (loadHalted_handed s r)

theorem loadHalted_ctrl : s.loadHalted.ctrl = s.ctrl := by rw [loadHalted_frame]

theorem loadHalted_cmp : s.loadHalted.cmp = s.cmp := by rw [loadHalted_frame]

/-- The journal's entry in hand and its phase stand as the load ends. -/
theorem loadHalted_hand : s.loadHalted.journal.phase = s.journal.phase ∧ s.loadHalted.journal.hand = s.journal.hand := by
  rw [loadHalted_journal]
  exact ⟨rfl, rfl⟩

/-- With no stalled entry the load abandoned is all that happens. -/
theorem haltJournal_loadHalted_rests (h : s.journal.phase ≠ .stalled) : haltJournal s.loadHalted = s.loadHalted := by
  obtain ⟨hphase, -⟩ := loadHalted_hand s
  exact haltJournal_rests _ (by rwa [hphase])

theorem haltJournal_loadHalted_abandons (src : Source) (e : JournalEntry) (h : s.journal.phase = .stalled)
    (hh : s.journal.hand = some (src, e)) : haltJournal s.loadHalted = s.loadHalted.giveUp src := by
  obtain ⟨hphase, hhand⟩ := loadHalted_hand s
  exact haltJournal_abandons _ src e (hphase.trans h) (hhand.trans hh)

theorem haltJournal_loadHalted_table :
    (haltJournal s.loadHalted).ctrl = { s.ctrl with offer := (haltJournal s.loadHalted).ctrl.offer } := by
  rw [← loadHalted_ctrl s, haltJournal_halted s.loadHalted (loadHalted_run s)]

/-- Of the Campaign Table a halt reaches the offer that a campaign's own stalled entry clears. -/
theorem haltJournal_loadHalted_ctrl (src : Source) (e : JournalEntry) (hh : s.journal.hand = some (src, e)) (h : src ≠ .campaign) :
    (haltJournal s.loadHalted).ctrl = s.ctrl := by
  by_cases hstall : s.journal.phase = .stalled
  · rw [haltJournal_loadHalted_abandons s src e hstall hh, giveUp_halted_ctrl _ src (loadHalted_run s) h, loadHalted_ctrl]
  · rw [haltJournal_loadHalted_rests s hstall, loadHalted_ctrl]

section

variable {a : Action} (ha : s.custody.action = some a)
include ha

theorem loadHalted_reading (h : a.phase.isReading = true) :
    s.loadHalted.custody.action = none ∧ s.loadHalted.journal = s.journal := by
  obtain ⟨p, hp⟩ := haltLoadAction_reading (s := s.loadEnded) ha h
  rw [State.loadHalted, hp]
  exact ⟨rfl, rfl⟩

theorem loadHalted_finishing {o : SelectOutcome} (h : a.phase = .writing (.finish o)) :
    s.loadHalted.custody.action = some a ∧ s.loadHalted.journal = s.journal := by
  rw [State.loadHalted, haltLoadAction_finishing (s := s.loadEnded) ha h]
  exact ⟨ha, rfl⟩

theorem loadHalted_journaling {rev v b ids o} (h : a.phase = .writing (.journal rev v b ids o)) :
    s.loadHalted.custody.action = some { a with phase := .writing (.finish o) } ∧ s.loadHalted.journal = s.journal := by
  rw [State.loadHalted, haltLoadAction_journaling (s := s.loadEnded) ha h]
  exact ⟨rfl, rfl⟩

theorem loadHalted_offered {o : SelectOutcome} (h : a.phase = .entry o) (hoffer : s.journal.custOffer.isSome = true) :
    s.loadHalted.custody.action = none ∧ s.loadHalted.journal = { s.journal with custOffer := none } := by
  rw [State.loadHalted, haltLoadAction_offered (s := s.loadEnded) ha h hoffer]
  exact ⟨rfl, rfl⟩

theorem loadHalted_taken {o : SelectOutcome} (h : a.phase = .entry o) (hoffer : s.journal.custOffer = none) :
    s.loadHalted.custody.action = some a ∧ s.loadHalted.journal = s.journal := by
  rw [State.loadHalted, haltLoadAction_taken (s := s.loadEnded) ha h hoffer]
  exact ⟨ha, rfl⟩

end

/-- An action that ends with its stalled entry leaves neither the entry nor an offer. -/
theorem loadHalted_stalled (a : Action) (o : SelectOutcome) (ha : s.custody.action = some a) (hp : a.phase = .entry o) :
    ((s.loadHalted.giveUp .custody).custody.action = none) ∧
      (s.loadHalted.giveUp .custody).journal = { s.journal with phase := .idle, hand := none, custOffer := none } := by
  have hrun : s.loadHalted.run ≠ .running ∧ s.loadHalted.run ≠ .loading := by
    rw [loadHalted_run]
    decide
  rw [giveUp_journal]
  cases hoffer : s.journal.custOffer with
  | none =>
    have hstands : s.loadHalted = s.loadEnded := haltLoadAction_taken (s := s.loadEnded) ha hp hoffer
    rw [hstands] at hrun ⊢
    refine ⟨giveUp_entry s.loadEnded a o ha hp hrun.1 hrun.2, ?_⟩
    rw [Journal.givenUp, ← hoffer]
    rfl
  | some e =>
    have hends : s.loadHalted = _ := haltLoadAction_offered (s := s.loadEnded) ha hp (Option.isSome_iff_exists.2 ⟨e, hoffer⟩)
    rw [hends]
    exact ⟨giveUp_no_action _ .custody rfl, rfl⟩

end LoadHalted

end Sys2Proof.Machine

open Sys2Proof Sys2Proof.Machine

/-- Settles O5: the registers and memory first, then what becomes of the blocks by the run state. -/
theorem haltRequestByRunState : Obligations.HaltRequestByRunState := by
  intro value s hheld hselect hhalt
  have harm : exec (.halt value) s = .next (settle (haltRequest (s.halting value))) := by
    rw [halt_arm, whenSelected_eq 1 _ s hheld (congrArg BitVec.toNat hselect), controlWrite_halts value s hhalt]
  have hhost : (settle (haltRequest (s.halting value))).hostSide = { s.hostSide with irqEn := value.getLsbD 10 } := by
    rw [← controlWrite_halts value s hhalt]
    exact controlWrite_hostSide value s
  refine ⟨haltRequest (s.halting value), harm, haltRequest_regs _, ?_, hhost, fun b => ?_, haltRequest_idle (s.halting value),
    fun hr => ?_, fun hr => ?_⟩
  · rw [settle_run, haltRequest_run]
    rfl
  · rw [memory_eq, hhost]
    rfl
  · rw [haltRequest_running (s.halting value) hr]
    obtain ⟨hmap, hqueue⟩ := haltJournal_stopped_custody (s.halting value)
    refine ⟨haltJournal_stopped_frame (s.halting value), hmap, hqueue, fun a ha hread hcmp => ?_, fun hstall => ?_,
      fun src e hstall hhand => ?_⟩
    · exact haltJournal_stopped_ends (s.halting value) a ha (by rw [Action.abandoned, hread, hcmp]; rfl)
    · rw [haltJournal_stopped_rests (s.halting value) hstall]
      have hdrops := stopped_drops (s.halting value)
      refine ⟨stopped_journal _, stopped_cmp _, stopped_nextId _, stopped_offer _, fun a ha hkept => ?_, hdrops.ends, hdrops.stands,
        stopped_handed _⟩
      exact stopped_keeps (s.halting value) a ha (by rw [Action.abandoned]; rcases hkept with h | h <;> simp [h])
    · rw [haltJournal_stopped_abandons (s.halting value) src e hstall hhand]
      refine ⟨?_, ?_, fun hsrc => ?_, ?_, ?_⟩
      · rw [giveUp_journal, stopped_journal]
        rfl
      · rintro rfl
        refine ⟨?_, (giveUp_comparator _).2⟩
        rw [(giveUp_comparator _).1, stopped_cmp]
        rfl
      · rw [giveUp_cmp _ src (stopped_run _) hsrc, stopped_cmp]
        rfl
      · rintro rfl
        exact giveUp_campaign _
      · rintro a o rfl ha hp
        exact giveUp_stopped_entry (s.halting value) a o ha hp
  · rw [haltRequest_loading (s.halting value) hr]
    refine ⟨haltJournal_loadHalted_frame (s.halting value), haltJournal_loadHalted_table (s.halting value),
      haltJournal_loadHalted_handed (s.halting value), haltJournal_loadHalted_ctrl (s.halting value), fun hstall => ?_, ?_⟩
    · rw [haltJournal_loadHalted_rests (s.halting value) hstall]
      refine ⟨loadHalted_ctrl _, loadHalted_cmp _, fun a ha => ⟨?_, fun o => ?_, fun rev v b ids o => ?_, fun o => ?_, fun o => ?_⟩⟩
      · exact loadHalted_reading (s.halting value) ha
      · exact loadHalted_finishing (s.halting value) ha
      · exact loadHalted_journaling (s.halting value) ha
      · exact loadHalted_offered (s.halting value) ha
      · exact loadHalted_taken (s.halting value) ha
    · intro e a o c hstall hhand ha hp _
      rw [haltJournal_loadHalted_abandons (s.halting value) .custody e hstall hhand]
      exact loadHalted_stalled (s.halting value) a o ha hp

end

section
/-! PROOF. The step on a queue that is not empty (log entry 11), beside the steps on an empty queue above. -/

namespace Sys2Proof.Machine

/-- The command at the front runs on the part as it is but for the queue, which keeps its rest. -/
theorem step_front (s : State) (c : Instr) (rest : List Instr) (hp : s.pending = c :: rest) :
    step s = exec c { s with pending := rest } := by
  simp only [step, stepQueue, hp]

end Sys2Proof.Machine

open Sys2Proof Sys2Proof.Machine

/-- Settles O54: the queue's rest is the queue of the state that the command was put in front of, so the command runs on that state. -/
theorem stepRunsTheFrontCommand : Obligations.StepRunsTheFrontCommand := by
  intro c s
  exact step_front { s with pending := c :: s.pending } c s.pending rfl

end
